-- ==== Sys2Proof/Word.lean ====
section
/-! DEFINITION. The byte and word types of the serial lines and the staging check. -/

namespace Sys2Proof

/-- One character of a serial line: 8 data bits (R159). -/
abbrev Byte := BitVec 8

/-- The 16-bit CRC of frames and of the staging check (R117, R161). -/
abbrev Crc := BitVec 16

end Sys2Proof
end

