-- ==== Sys2Proof/Config.lean ====
section
/-! DEFINITION. What the TB16 fixes for every engine: limits, defaults and the free values the manual leaves open. -/

namespace Sys2Proof.Config

/-- The SYNC byte (R161). -/
def sync : Byte := 0xC3
/-- DEST of a frame addressed to all nodes (R161). -/
def broadcast : Byte := 0xFF
/-- Largest LEN of an inbound frame (R161, R164). -/
def maxInboundLen : Nat := 56
/-- The inbound queue holds at most 16 frames (R167). -/
def inboundLimit : Nat := 16
/-- The outbound queue holds at most 32 frames (R170). -/
def outboundLimit : Nat := 32
/-- A SORT_REPORT is admitted only below this occupancy (R170). -/
def reportLimit : Nat := 28
/-- The urgent reply list holds up to 4 replies (R166). -/
def urgentLimit : Nat := 4
/-- The retired stack holds at most 8 records (R8). -/
def stackLimit : Nat := 8
/-- A confirmation queue holds at most 4 entries (R82). -/
def queueLimit : Nat := 4
/-- The later-fault list holds at most 4 entries (R134). -/
def laterLimit : Nat := 4
/-- Largest seq (R5). -/
def seqMax : Nat := 4294967295
/-- Largest lot counter and lot total (R51, R102). -/
def countMax : Nat := 4294967295
/-- committed holds here (R51). -/
def committedMax : Nat := 65535
/-- miss run holds here (R51). -/
def missRunMax : Nat := 15
/-- Largest deviation and drift in ppm (R38, R42). -/
def ppmMax : Nat := 999999
/-- The clearance index count holds at plus and minus this (R146, R150). -/
def indexCountMax : Int := 65535
/-- Largest number of overflow hops (R56). -/
def maxHops : Nat := 4
/-- Hop count of the fall-back to the sweep outlet (R56). -/
def sweepHops : Nat := 5
/-- The instants of the lines are counted in ticks of an eighth of a µs, one bit time at 8 Mbit/s (R159, log 15). -/
def ticksPerUs : Nat := 8
/-- x^16 + x^12 + x^5 + 1 without its top term (R117). -/
def crcPoly : Crc := 0x1021
/-- Starting value of the CRC and of the staging check (R117). -/
def crcStart : Crc := 0xFFFF

/-- FREE VALUE (DESIGN CHOICE to keep it free, log 12; safe): what stands in the bytes of a reply's field that the
manual calls absent or not meaningful (R173, R175). Nothing is known of it. -/
opaque unstatedField : Nat → BitVec 32

end Sys2Proof.Config
end

