-- ==== Sys2Proof/Syntax.lean ====
section
/-! DEFINITION. The commands of the TB16: one constructor for each row of spec/opcode_table.json. -/

namespace Sys2Proof

/-- A three-level ADDR strap as it is read (R160). -/
inductive StrapLevel where
  | low
  | high
  | floating
  deriving DecidableEq, Repr

/-- What arrived on RXD when FRAME_REJECT is given (R164): a LEN byte above 56, a character whose stop bit is low, or a
break. -/
inductive LineTrouble where
  | length (len : Byte)
  | framing
  | lineBreak
  deriving DecidableEq, Repr

/-- The commands. `time` is the reading of the engine's time base, in µs, at which an edge or a character comes (log 1). -/
inductive Instr where
  /-- R10: a rising edge on INDEX with DIR high; `home` is the level of HOME at the edge. -/
  | forwardIndex (time : Nat) (home : Bool)
  /-- R20: a rising edge on INDEX with DIR low. -/
  | reverseIndex (time : Nat)
  /-- R96: the check-delay timer expires; `check` is the level of CHECK. -/
  | checkSample (check : Bool)
  /-- R71: an outlet's fire-delay timer expires. -/
  | fireDelayExpiry (outlet : Fin 16)
  /-- R74: an outlet's pulse timer expires. -/
  | pulseEnd (outlet : Fin 16)
  /-- R75: a rising edge on an outlet's ACK line. -/
  | ack (time : Nat) (outlet : Fin 16)
  /-- R76: an outlet's ack timer expires. -/
  | ackLimitExpiry (outlet : Fin 16)
  /-- R83: a rising edge on an outlet's DROP line. -/
  | drop (time : Nat) (outlet : Fin 16)
  /-- R86: the head entry's flight window closes. -/
  | flightMaxMiss (outlet : Fin 16)
  /-- R140: a rising edge on JAM. -/
  | jamRise (time : Nat)
  /-- R140: a falling edge on JAM. -/
  | jamFall (time : Nat)
  /-- R142: start of power. -/
  | powerOn
  /-- R142: the supply falls below its operating level. -/
  | supplyLow
  /-- R142: RESET_N goes active. -/
  | external
  /-- R164: a LEN byte above 56, a framing error or a break. -/
  | frameReject (time : Nat) (trouble : LineTrouble)
  /-- R164: the inter-byte gap timer expires. -/
  | gapTimer
  /-- R165: the good character that is a frame's last CRC byte. -/
  | frameComplete (time : Nat) (char : Byte)
  /-- R141: an urgent HALT frame that the receiver kept, with its TAG. -/
  | halt (tag : Byte)
  /-- R143: an urgent CORE_RESET frame that the receiver kept. -/
  | coreReset
  /-- R31: the Dispatcher serves a MEAS frame. -/
  | meas
  /-- R173 -/
  | statusQuery
  /-- R174 -/
  | pocketQuery
  /-- R175 -/
  | outletQuery
  /-- R116 -/
  | tableWrite
  /-- R124 -/
  | tableRead
  /-- R118 -/
  | tableDiscard
  /-- R119 -/
  | tableCommit
  /-- R128 -/
  | lotStart
  /-- R129 -/
  | lotEnd
  /-- R130 -/
  | lotAbort
  /-- R63 -/
  | outletReset
  /-- R138 -/
  | clearFault
  /-- R178 -/
  | noticeAck
  /-- R178 -/
  | noticeMask
  /-- R179 -/
  | nodeAssign
  /-- R169: the Dispatcher serves a frame whose KIND the engine does not take. -/
  | unknownKind
  /-- R171: the last byte of the head outbound frame has been sent. -/
  | transmissionEnd
  /-- R166, R170: a waiting HALT reply is admitted. -/
  | urgentReply
  /-- R154, R155: the SUMMARY stage looks for its place. -/
  | summaryStage
  /-- R182: an owed NOTICE frame is queued. -/
  | notice
  /-- R163: a good character arrives on RXD. -/
  | characterReceived (time : Nat) (char : Byte)
  /-- R142: the holding condition of a full reset ends; the straps as they are read. -/
  | resetHoldEnd (rate1 rate0 : Bool) (addr1 addr0 : StrapLevel)
  deriving DecidableEq, Repr

end Sys2Proof
end

