-- ==== Sys2Proof/Decode.lean ====
section
/-! DEFINITION. Decoding by the bits of spec/opcode_table.json. -/

namespace Sys2Proof

/-- The command that a word of the table's bits spells. No row of spec/opcode_table.json gives bits, so no word spells
one (log 27). -/
def decodeTableWord (_nbits _w : Nat) : Option Instr := none

end Sys2Proof
end

