-- ==== Sys2Proof/Machine/State.lean ====
section
/-! DEFINITION. The state of the TB16, block by block, and its state after reset. -/

namespace Sys2Proof.Machine

/-! ### Names -/

/-- Engine states (R126). -/
inductive EngineState where
  | unconfigured | ready | sorting | clearing | halted
  deriving DecidableEq, Repr

/-- What a lot is doing: the values of the return state (R126). -/
inductive RunState where
  | sorting | clearing
  deriving DecidableEq, Repr

/-- Reset causes (R142). -/
inductive ResetCause where
  | powerOn | supplyLow | external | link
  deriving DecidableEq, Repr

/-- Phases of a pocket record (R6). -/
inductive Phase where
  | void | open | empty | held | decided | firing | gone | stranded | retained | lost
  deriving DecidableEq, Repr

/-- Stations by their table index (R1). -/
inductive Station where
  | contact | value | recheck
  deriving DecidableEq, Repr

/-- Statuses of a MEAS frame (R29, R30). -/
inductive Status where
  | part | noPart | contactFail | ok | overHigh | overLow | meterError
  deriving DecidableEq, Repr

/-- A final class: a class index or a special verdict (R45). -/
inductive Verdict where
  | cls (index : Fin 32) | contactReject | outOfTolerance | driftReject | retest
  deriving DecidableEq, Repr

/-- Verdict reasons and strand reasons (R4). -/
inductive Reason where
  | inClass | outOfTolerance | drift | contactFail | meterError | late | stray
  | missedDrop | fireCancelled | outletFaulted | backlog | trackSuspect
  deriving DecidableEq, Repr

/-- Reasons for which a MEAS frame is discarded (R32). -/
inductive Discard where
  | noLot | badStation | early | late | outOfZone | duplicate | final | notLoaded | broadcast
  deriving DecidableEq, Repr

/-- Fault codes (R133). -/
inductive FaultCode where
  | jam | haltRequest | homeMismatch | partRetained | sweepUnchecked | sweepFull | runOutExceeded
  deriving DecidableEq, Repr

/-- Notice conditions (R180). -/
inductive Condition where
  | start | halted | outletFull | outletFault | strayDrop | measDiscarded | trackGap | linkError | unaccounted | jam
  | clearDone
  deriving DecidableEq, Repr

/-- Kinds of reject, and the overrun, as LINK_ERROR tells them (R164, R180). -/
inductive LinkTrouble where
  | length | framing | lineBreak | gap | crc | overrun
  deriving DecidableEq, Repr

/-- Result codes of a REPLY (R162). -/
inductive ResultCode where
  | done | refusedState | badLength | badField | badIndex | checkMismatch | tableInvalid | stillActive | unknownKind
  deriving DecidableEq, Repr

/-- Outcomes of a SORT_REPORT (R88). -/
inductive SortOutcome where
  | sorted | swept | unaccounted | recovered
  deriving DecidableEq, Repr

/-- End kinds of a LOT_SUMMARY (R132). -/
inductive EndKind where
  | cleared | abandoned | aborted
  deriving DecidableEq, Repr

/-! ### Pocket records (R4) -/

/-- One entry of a record's result list; the value is mantissa and exponent, present for status OK. -/
structure Result where
  station : Station
  status : Status
  value : Option (Nat × Int)
  deriving DecidableEq, Repr

/-- A target outlet with its hop count (R56, R57). -/
structure Route where
  outlet : Fin 16
  hops : Nat
  deriving DecidableEq, Repr

/-- How the Tracker names a record to the Outlet Unit (R69): by seq, or, without seq, as the one record it stands for
(`ident`, log 18). -/
inductive RecordName where
  | numbered (seq : Nat)
  | unnumbered (ident : Nat)
  deriving DecidableEq, Repr

structure PocketRecord where
  seq : Option Nat
  /-- The model's own: tells records without seq apart (log 18). -/
  ident : Nat
  phase : Phase
  counted : Bool
  checked : Bool
  results : List Result
  provisional : Option (Fin 32)
  finalClass : Option Verdict
  reason : Option Reason
  /-- Target outlet and hop count, present together. -/
  target : Option Route
  deviation : Option Int
  drift : Option Nat
  saturated : Bool
  deriving DecidableEq, Repr

/-- The Dial Tracker (R1 to R28). `ring` runs from offset 0 up; the head of `stack` is its top. -/
structure Tracker where
  ring : List PocketRecord
  stack : List PocketRecord
  loadPocket : Option Nat
  nextSeq : Option Nat
  /-- When the check-delay timer expires; absent when it is stopped (R19). -/
  checkTimer : Option Nat
  /-- The model's own: the next `ident` to give (log 18). -/
  nextIdent : Nat
  deriving DecidableEq, Repr

/-! ### Outlets (R51, R69, R82) -/

inductive OutletState where
  | open | full | faulted | disabled
  deriving DecidableEq, Repr

/-- One entry of a confirmation queue (R82); `name` carries the seq. -/
structure Entry where
  name : RecordName
  counted : Bool
  fireTime : Nat
  pocket : Nat
  finalClass : Option Verdict
  reason : Option Reason
  hops : Nat
  deviation : Option Int
  drift : Option Nat
  deriving DecidableEq, Repr

/-- The fire slot (R69). `expires` is the end of the fire delay. -/
inductive Slot where
  | free
  | delay (name : RecordName) (expires : Nat)
  | due (name : RecordName)
  deriving DecidableEq, Repr

/-- The drive (R69): the pulse timer, or the ack timer with the strobe's claim, absent once withdrawn. -/
inductive Drive where
  | quiet
  | pulse (ends : Nat)
  | strobe (expires : Nat) (claim : Option RecordName)
  deriving DecidableEq, Repr

structure Outlet where
  state : OutletState
  committed : Nat
  reserved : Nat
  lotTotal : Nat
  missRun : Nat
  queue : List Entry
  slot : Slot
  drive : Drive
  deriving DecidableEq, Repr

/-! ### Supervisor (R126, R134, R146, R102) -/

/-- Clearance stages (R146). -/
inductive Stage where
  | runOut | settle | summary
  deriving DecidableEq, Repr

/-- Run-out kinds (R146). -/
inductive RunKind where
  | ran | abandoned
  deriving DecidableEq, Repr

structure Clearance where
  stage : Stage
  kind : RunKind
  count : Int
  deriving DecidableEq, Repr

structure FaultEntry where
  code : FaultCode
  loadPocket : Nat
  seq : Option Nat
  deriving DecidableEq, Repr

structure FaultRecord where
  first : Option FaultEntry
  later : List FaultEntry
  overflow : Bool
  deriving DecidableEq, Repr

structure Supervisor where
  engine : EngineState
  returnState : Option RunState
  clearance : Option Clearance
  faults : FaultRecord
  lotId : Option Nat
  present : Nat
  unaccounted : Nat
  recovered : Nat
  strays : Nat
  lastDiscard : Option Discard
  resetCause : ResetCause
  deriving DecidableEq, Repr

/-! ### Sort tables (R107 to R115) -/

structure DialEntry where
  pockets : Nat
  checkOffset : Nat
  checkDelay : Nat
  deriving DecidableEq, Repr

structure StationEntry where
  enabled : Bool
  offset : Nat
  allowance : Nat
  deriving DecidableEq, Repr

inductive DriveMode where
  | pulse | gated
  deriving DecidableEq, Repr

structure OutletEntry where
  enabled : Bool
  offset : Nat
  mode : DriveMode
  fireDelay : Nat
  pulseWidth : Nat
  ackLimit : Nat
  flightMin : Nat
  flightMax : Nat
  capacity : Nat
  overflow : Option (Fin 16)
  missLimit : Nat
  sweep : Bool
  deriving DecidableEq, Repr

structure ClassEntry where
  enabled : Bool
  lo : Int
  hi : Int
  outlet : Fin 16
  deriving DecidableEq, Repr

structure LotEntry where
  nominalMantissa : Nat
  nominalExponent : Int
  driftLimit : Nat
  contactReject : Fin 16
  outOfTolerance : Fin 16
  driftReject : Fin 16
  retest : Fin 16
  abandon : Bool
  deriving DecidableEq, Repr

structure LinkEntry where
  holdOn : Nat
  holdOff : Nat
  gapLimit : Nat
  deriving DecidableEq, Repr

/-- One table set; an entry is present or absent (R107). -/
structure TableSet where
  dial : Option DialEntry
  stations : Vector (Option StationEntry) 3
  outlets : Vector (Option OutletEntry) 16
  classes : Vector (Option ClassEntry) 32
  lot : Option LotEntry
  link : Option LinkEntry
  deriving DecidableEq, Repr

/-- A set with every entry absent (R108). -/
def TableSet.absent : TableSet :=
  { dial := none, stations := Vector.replicate 3 none, outlets := Vector.replicate 16 none,
    classes := Vector.replicate 32 none, lot := none, link := none }

structure TableStore where
  active : Option TableSet
  staged : TableSet
  check : Crc
  deriving DecidableEq, Repr

/-! ### Notices (R180, R181) -/

structure NoticeCell where
  pending : Bool
  masked : Bool
  owed : Bool
  detail : Nat
  deriving DecidableEq, Repr

/-! ### The line (R161 to R171) -/

/-- A kept inbound frame (R167). -/
structure InFrame where
  dest : Byte
  kind : Byte
  tag : Byte
  payload : List Byte
  deriving DecidableEq, Repr

/-- A SORT_REPORT (R88, R162). -/
structure SortReport where
  pocket : Nat
  outcome : SortOutcome
  outlet : Fin 16
  hops : Nat
  seq : Option Nat
  finalClass : Option Verdict
  reason : Option Reason
  deviation : Option Int
  drift : Option Nat
  flightTime : Option Nat
  deriving DecidableEq, Repr

/-- A LOT_SUMMARY (R132). -/
structure LotSummary where
  lotId : Nat
  endKind : EndKind
  present : Nat
  unaccounted : Nat
  recovered : Nat
  strays : Nat
  totals : List Nat
  deriving DecidableEq, Repr

/-- What an outbound frame says. A REPLY holds the request's KIND, the result and the bytes after them (R172). -/
inductive OutBody where
  | reply (kind : Byte) (result : ResultCode) (rest : List Byte)
  | notice (condition : Condition) (detail : Nat)
  | sortReport (report : SortReport)
  | lotSummary (summary : LotSummary)
  deriving DecidableEq, Repr

/-- An outbound frame; its FLAGS byte is absent until its transmission begins (R171). -/
structure OutFrame where
  tag : Byte
  body : OutBody
  flags : Option Byte
  deriving DecidableEq, Repr

/-- The frame assembler (R163). The held bytes begin with the SYNC. -/
inductive Assembler where
  | hunt
  | frame (held : List Byte)
  deriving DecidableEq, Repr

structure LineReceiver where
  assembler : Assembler
  /-- When the gap timer expires; absent when it is stopped. -/
  gapTimer : Option Nat
  /-- When the gap that began at the end of the last character received runs out, under the limit in force as it began
  (R123, R164). -/
  gapEnd : Nat
  /-- Absent: the node is unassigned (R160). -/
  nodeAddress : Option (Fin 4)
  inbound : List InFrame
  hold : Bool
  urgent : List OutFrame
  deriving DecidableEq, Repr

/-- TXD (R171), its instants in ticks: idle since one, sending the head frame, or ending a frame that a CORE_RESET cut with
the character in progress. -/
inductive Txd where
  | idle (since : Nat)
  | sending (began ends : Nat)
  | cut (ends : Nat)
  deriving DecidableEq, Repr

structure LineTransmitter where
  outbound : List OutFrame
  txd : Txd
  reject : Bool
  overrun : Bool
  lost : Bool
  deriving DecidableEq, Repr

/-- Bit rates of RXD and TXD (R159). -/
inductive BitRate where
  | mbit1 | mbit2 | mbit4 | mbit8
  deriving DecidableEq, Repr

/-! ### The state -/

structure State where
  /-- The 1 MHz time base, in µs (log 1). -/
  now : Nat
  /-- The engine is held in a full reset (R142). -/
  held : Bool
  /-- The level of the JAM line (R140). -/
  jam : Bool
  rate : BitRate
  tracker : Tracker
  outlets : Vector Outlet 16
  sup : Supervisor
  tables : TableStore
  notices : Vector NoticeCell 11
  lrx : LineReceiver
  ltx : LineTransmitter
  /-- The model's own: which free value is drawn next (log 12). -/
  unstated : Nat
  /-- The commands that wait, first in, first out. -/
  pending : List Instr
  deriving DecidableEq, Repr

/-- No command of the TB16 stops the block: the spec gives no stopping condition, its faults are states (R133, R135).
So there is no reason, nobody raises one, and nothing is unsafe about it (log 26). -/
inductive Fault where
  deriving DecidableEq, Repr

/-- Why a command may have no meaning. -/
inductive Refusal where
  /-- Raised by `exec` for a row without a meaning yet; safe. No arm raises it now. -/
  | notModelled (mnemonic : String)
  deriving DecidableEq, Repr

/-! ### Reset values -/

/-- R27: no ring, an empty stack, a stopped timer, no load_pocket and no next seq. -/
def Tracker.afterReset : Tracker :=
  { ring := [], stack := [], loadPocket := none, nextSeq := none, checkTimer := none, nextIdent := 0 }

/-- R53, R69: a DISABLED outlet with all counts 0. -/
def Outlet.afterReset : Outlet :=
  { state := .disabled, committed := 0, reserved := 0, lotTotal := 0, missRun := 0, queue := [], slot := .free,
    drive := .quiet }

/-- An empty fault record (R134). -/
def FaultRecord.empty : FaultRecord := { first := none, later := [], overflow := false }

/-- R144. -/
def Supervisor.afterReset (engine : EngineState) (cause : ResetCause) : Supervisor :=
  { engine := engine, returnState := none, clearance := none, faults := .empty, lotId := none, present := 0,
    unaccounted := 0, recovered := 0, strays := 0, lastDiscard := none, resetCause := cause }

/-- R108: no active set, every staged entry absent, the check restarted. -/
def TableStore.afterFullReset : TableStore :=
  { active := none, staged := .absent, check := Config.crcStart }

/-- A condition that is clear, with detail 0 (R184). -/
def NoticeCell.clear : NoticeCell := { pending := false, masked := false, owed := false, detail := 0 }

/-- The tenth section of chapter 9 and R163, R166 to R168: HUNT, empty queues, HOLD inactive. -/
def LineReceiver.afterReset (address : Option (Fin 4)) : LineReceiver :=
  { assembler := .hunt, gapTimer := none, gapEnd := 0, nodeAddress := address, inbound := [], hold := false,
    urgent := [] }

/-- The machine right after a POWER_ON reset: UNCONFIGURED, no tables, START pending with its NOTICE on TXD (R144, R145,
R184). The straps were read as RATE 00 and ADDR 00 and JAM is inactive (DESIGN CHOICE, log 11). The START frame is 12
characters of 10 µs, which is 80 ticks (log 15). -/
def State.reset : State :=
  { now := 0
    held := false
    jam := false
    rate := .mbit1
    tracker := .afterReset
    outlets := Vector.replicate 16 .afterReset
    sup := .afterReset .unconfigured .powerOn
    tables := .afterFullReset
    notices := (Vector.replicate 11 NoticeCell.clear).set 0 { pending := true, masked := false, owed := false, detail := 0 }
    lrx := .afterReset (some 0)
    ltx := { outbound := [{ tag := 0, body := .notice .start 0, flags := some 0x08 }], txd := .sending 0 960,
             reject := false, overrun := false, lost := false }
    unstated := 0
    pending := [] }

end Sys2Proof.Machine
end

