-- ==== Sys2Proof/Machine/Operands.lean ====
section
/-! DEFINITION. Operands: the codes, byte orders and payload encodings of the test line (R161, R162, R173 to R178), the
CRC (R117), and the reading of MEAS and table payloads. -/

namespace Sys2Proof.Machine

/-! ### Bytes, most significant first (R161) -/

/-- The low `n` bytes of `v`, most significant byte first. -/
def bytesOf : Nat → Nat → List Byte
  | 0, _ => []
  | n + 1, v => BitVec.ofNat 8 (v / 256 ^ n) :: bytesOf n v

/-- The unsigned number that bytes give, most significant byte first. -/
def natOf (bytes : List Byte) : Nat := bytes.foldl (fun acc b => 256 * acc + b.toNat) 0

/-- Two's complement in `n` bytes (R162). -/
def signedBytesOf (n : Nat) (v : Int) : List Byte := bytesOf n (v % (256 ^ n : Nat)).toNat

/-- The two's complement number that bytes give (R162). -/
def intOf (bytes : List Byte) : Int :=
  if 2 * natOf bytes < 256 ^ bytes.length then natOf bytes else (natOf bytes : Int) - (256 ^ bytes.length : Nat)

/-- `count` bytes of a payload from byte `start`. -/
def slice (payload : List Byte) (start count : Nat) : List Byte := (payload.drop start).take count

/-- An unsigned field of a payload. -/
def field (payload : List Byte) (start count : Nat) : Nat := natOf (slice payload start count)

/-- A signed field of a payload. -/
def signedField (payload : List Byte) (start count : Nat) : Int := intOf (slice payload start count)

/-- A flag byte: 0 for false and 1 for true (R162). -/
def flagByte (b : Bool) : Byte := if b then 1 else 0

/-! ### The CRC (R117, R161) -/

/-- One bit of the CRC: x^16 + x^12 + x^5 + 1, most significant bit first. -/
def crcBit (c : Crc) : Crc := if c.msb then (c <<< 1) ^^^ Config.crcPoly else c <<< 1

/-- One byte of the CRC. -/
def crcByte (c : Crc) (b : Byte) : Crc :=
  crcBit (crcBit (crcBit (crcBit (crcBit (crcBit (crcBit (crcBit (c ^^^ (b.zeroExtend 16 <<< 8)))))))))

/-- The CRC continued over bytes. -/
def crcFold (c : Crc) (bytes : List Byte) : Crc := bytes.foldl crcByte c

/-- The CRC of a frame from its DEST or FLAGS byte to its last payload byte (R161). -/
def frameCrc (bytes : List Byte) : Crc := crcFold Config.crcStart bytes

/-! ### Codes -/

/-- Engine-state encoding (R173). -/
def EngineState.code : EngineState → Nat
  | .unconfigured => 0 | .ready => 1 | .sorting => 2 | .clearing => 3 | .halted => 4

/-- Return-state encoding (R173). -/
def RunState.code : RunState → Nat
  | .sorting => 2 | .clearing => 3

/-- Reset-cause encoding (R173). -/
def ResetCause.code : ResetCause → Nat
  | .powerOn => 0 | .supplyLow => 1 | .external => 2 | .link => 3

/-- Clearance-stage encoding (R173). -/
def Stage.code : Stage → Nat
  | .runOut => 0 | .settle => 1 | .summary => 2

/-- The end kind a run-out kind leads to (R146, R155). -/
def RunKind.endKind : RunKind → EndKind
  | .ran => .cleared | .abandoned => .abandoned

/-- End-kind encoding (R162). -/
def EndKind.code : EndKind → Nat
  | .cleared => 0 | .abandoned => 1 | .aborted => 2

/-- Phase encoding (R174). -/
def Phase.code : Phase → Nat
  | .void => 0 | .open => 1 | .empty => 2 | .held => 3 | .decided => 4 | .firing => 5 | .gone => 6 | .stranded => 7
  | .retained => 8 | .lost => 9

/-- Station encoding (R162). -/
def Station.code : Station → Nat
  | .contact => 0 | .value => 1 | .recheck => 2

/-- The station's place in the STATION table (R111). -/
def Station.index : Station → Fin 3
  | .contact => 0 | .value => 1 | .recheck => 2

/-- Status encoding (R162). -/
def Status.code : Status → Nat
  | .part => 0 | .noPart => 1 | .contactFail => 2 | .ok => 3 | .overHigh => 4 | .overLow => 5 | .meterError => 6

/-- Verdict encoding (R162). -/
def Verdict.code : Verdict → Nat
  | .cls c => c.val | .contactReject => 0x40 | .outOfTolerance => 0x41 | .driftReject => 0x42 | .retest => 0x43

/-- Reason encoding (R162). -/
def Reason.code : Reason → Nat
  | .inClass => 1 | .outOfTolerance => 2 | .drift => 3 | .contactFail => 4 | .meterError => 5 | .late => 6 | .stray => 7
  | .missedDrop => 16 | .fireCancelled => 17 | .outletFaulted => 18 | .backlog => 19 | .trackSuspect => 20

/-- Discard-reason encoding (R173). -/
def Discard.code : Discard → Nat
  | .noLot => 0 | .badStation => 1 | .early => 2 | .late => 3 | .outOfZone => 4 | .duplicate => 5 | .final => 6
  | .notLoaded => 7 | .broadcast => 8

/-- Fault-code encoding (R173). -/
def FaultCode.code : FaultCode → Nat
  | .jam => 0 | .haltRequest => 1 | .homeMismatch => 2 | .partRetained => 3 | .sweepUnchecked => 4 | .sweepFull => 5
  | .runOutExceeded => 6

/-- Condition numbers (R162, R180). -/
def Condition.index : Condition → Fin 11
  | .start => 0 | .halted => 1 | .outletFull => 2 | .outletFault => 3 | .strayDrop => 4 | .measDiscarded => 5
  | .trackGap => 6 | .linkError => 7 | .unaccounted => 8 | .jam => 9 | .clearDone => 10

/-- The conditions in order of their numbers (R180). -/
def Condition.all : List Condition :=
  [.start, .halted, .outletFull, .outletFault, .strayDrop, .measDiscarded, .trackGap, .linkError, .unaccounted, .jam,
   .clearDone]

/-- LINK_ERROR's detail (R180). -/
def LinkTrouble.code : LinkTrouble → Nat
  | .length => 0 | .framing => 1 | .lineBreak => 2 | .gap => 3 | .crc => 4 | .overrun => 5

/-- Result-code encoding (R162). -/
def ResultCode.code : ResultCode → Nat
  | .done => 0 | .refusedState => 1 | .badLength => 2 | .badField => 3 | .badIndex => 4 | .checkMismatch => 5
  | .tableInvalid => 6 | .stillActive => 7 | .unknownKind => 8

/-- Outcome encoding (R162). -/
def SortOutcome.code : SortOutcome → Nat
  | .sorted => 0 | .swept => 1 | .unaccounted => 2 | .recovered => 3

/-- Outlet-state encoding (R175). -/
def OutletState.code : OutletState → Nat
  | .open => 0 | .full => 1 | .faulted => 2 | .disabled => 3

/-- Slot-state encoding (R175). -/
def Slot.code : Slot → Nat
  | .free => 0 | .delay _ _ => 1 | .due _ => 2

/-- Drive-state encoding (R175). -/
def Drive.code : Drive → Nat
  | .quiet => 0 | .pulse _ => 1 | .strobe _ _ => 2

/-- One character time, ten bit times, in ticks: 10 µs at 1 Mbit/s and 1.25 µs at 8 Mbit/s (R159). -/
def BitRate.charTicks : BitRate → Nat
  | .mbit1 => 80 | .mbit2 => 40 | .mbit4 => 20 | .mbit8 => 10

/-- The rate that the straps RATE1, RATE0 give (R159). -/
def BitRate.ofStraps : Bool → Bool → BitRate
  | false, false => .mbit1
  | false, true => .mbit2
  | true, false => .mbit4
  | true, true => .mbit8

/-- The bit a two-level reading of an ADDR strap gives; absent for open (R160). -/
def strapBit : StrapLevel → Option Nat
  | .low => some 0
  | .high => some 1
  | .floating => none

/-- The node address that the straps ADDR1, ADDR0 give (R160). -/
def addressOfStraps (addr1 addr0 : StrapLevel) : Option (Fin 4) :=
  match strapBit addr1, strapBit addr0 with
  | some a, some b => some (Fin.ofNat 4 (2 * a + b))
  | _, _ => none

/-- The seq a name carries (R82). -/
def RecordName.seq : RecordName → Option Nat
  | .numbered q => some q
  | .unnumbered _ => none

/-! ### Inbound KINDs (R161) -/

/-- The management requests and MEAS, by their KIND. -/
inductive RequestKind where
  | meas | statusQuery | pocketQuery | outletQuery | tableWrite | tableRead | tableDiscard | tableCommit | lotStart
  | lotEnd | lotAbort | outletReset | clearFault | noticeAck | noticeMask | nodeAssign
  deriving DecidableEq, Repr

/-- What the Dispatcher takes a KIND for (R161, R169). -/
def RequestKind.ofByte (kind : Byte) : Option RequestKind :=
  match kind.toNat with
  | 0x01 => some .meas
  | 0x10 => some .statusQuery
  | 0x11 => some .pocketQuery
  | 0x12 => some .outletQuery
  | 0x20 => some .tableWrite
  | 0x21 => some .tableRead
  | 0x22 => some .tableDiscard
  | 0x23 => some .tableCommit
  | 0x30 => some .lotStart
  | 0x31 => some .lotEnd
  | 0x32 => some .lotAbort
  | 0x33 => some .outletReset
  | 0x34 => some .clearFault
  | 0x40 => some .noticeAck
  | 0x41 => some .noticeMask
  | 0x42 => some .nodeAssign
  | _ => none

def kindMeas : Byte := 0x01
def kindNodeAssign : Byte := 0x42
def kindHalt : Byte := 0x50
def kindCoreReset : Byte := 0x51

/-! ### Outbound frames (R161, R162) -/

/-- Outbound KIND. -/
def OutBody.kind : OutBody → Byte
  | .reply _ _ _ => 0x80
  | .notice _ _ => 0x81
  | .sortReport _ => 0x82
  | .lotSummary _ => 0x83

/-- An optional field: its bytes when present, none when absent. -/
def optBytes {α : Type} (v : Option α) (enc : α → List Byte) : List Byte :=
  match v with
  | some x => enc x
  | none => []

/-- A presence bit. -/
def presenceBit {α : Type} (v : Option α) (bit : Nat) : Nat := if v.isSome then 2 ^ bit else 0

/-- SORT_REPORT payload, 5 to 19 bytes (R162). -/
def SortReport.payload (r : SortReport) : List Byte :=
  bytesOf 1 (presenceBit r.seq 0 + presenceBit r.finalClass 1 + presenceBit r.reason 2 + presenceBit r.deviation 3
      + presenceBit r.drift 4 + presenceBit r.flightTime 5)
    ++ bytesOf 1 r.pocket ++ bytesOf 1 r.outcome.code ++ bytesOf 1 r.outlet.val ++ bytesOf 1 r.hops
    ++ optBytes r.seq (bytesOf 4) ++ optBytes r.finalClass (fun v => bytesOf 1 v.code)
    ++ optBytes r.reason (fun v => bytesOf 1 v.code) ++ optBytes r.deviation (signedBytesOf 3)
    ++ optBytes r.drift (bytesOf 3) ++ optBytes r.flightTime (bytesOf 2)

/-- LOT_SUMMARY payload, 85 bytes (R162). -/
def LotSummary.payload (l : LotSummary) : List Byte :=
  bytesOf 4 l.lotId ++ bytesOf 1 l.endKind.code ++ bytesOf 4 l.present ++ bytesOf 4 l.unaccounted
    ++ bytesOf 4 l.recovered ++ bytesOf 4 l.strays ++ l.totals.flatMap (bytesOf 4)

/-- Payload of an outbound frame (R162). -/
def OutBody.payload : OutBody → List Byte
  | .reply kind result rest => kind :: BitVec.ofNat 8 result.code :: rest
  | .notice c detail => bytesOf 1 c.index.val ++ bytesOf 4 detail
  | .sortReport r => r.payload
  | .lotSummary l => l.payload

/-- The bytes of an outbound frame on TXD, its CRC computed over the frame as stamped (R161, R171). -/
def OutFrame.bytes (f : OutFrame) : List Byte :=
  let covered := f.flags.getD 0 :: f.body.kind :: f.tag :: BitVec.ofNat 8 f.body.payload.length :: f.body.payload
  Config.sync :: covered ++ bytesOf 2 (frameCrc covered).toNat

/-- Characters of an outbound frame (R161). -/
def OutFrame.chars (f : OutFrame) : Nat := 7 + f.body.payload.length

/-- The time a frame takes on TXD in ticks: its characters, each following the last without a gap (R159, R171). -/
def OutFrame.duration (rate : BitRate) (f : OutFrame) : Nat := f.chars * rate.charTicks

/-- R171: a CORE_RESET at `now` lets the character in progress end, counted from the start of the frame it cuts. -/
def Txd.cutAt (rate : BitRate) (now : Nat) : Txd → Txd
  | .idle since => .idle since
  | .sending began ends =>
    .cut (min ends (began + ((Config.ticksPerUs * now - began) / rate.charTicks + 1) * rate.charTicks))
  | .cut ends => .cut ends

/-! ### MEAS payload (R29, R162) -/

structure Meas where
  station : Station
  pocket : Nat
  status : Status
  value : Option (Nat × Int)
  deriving DecidableEq, Repr

def Station.ofCode : Nat → Option Station
  | 0 => some .contact | 1 => some .value | 2 => some .recheck | _ => none

def Status.ofCode : Nat → Option Status
  | 0 => some .part | 1 => some .noPart | 2 => some .contactFail | 3 => some .ok | 4 => some .overHigh
  | 5 => some .overLow | 6 => some .meterError | _ => none

/-- R30: CONTACT takes PART, NO_PART and CONTACT_FAIL; VALUE and RECHECK take the others. -/
def Status.belongsTo : Status → Station → Bool
  | .part, .contact => true | .noPart, .contact => true | .contactFail, .contact => true
  | .ok, .contact => false | .overHigh, .contact => false | .overLow, .contact => false | .meterError, .contact => false
  | .part, _ => false | .noPart, _ => false | .contactFail, _ => false
  | .ok, _ => true | .overHigh, _ => true | .overLow, _ => true | .meterError, _ => true

/-- A well-formed MEAS payload, or none (R31 test 2, R162): LEN 3, or 7 for OK, each field in its range. -/
def Meas.ofPayload (payload : List Byte) : Option Meas :=
  match Station.ofCode (field payload 0 1), Status.ofCode (field payload 2 1) with
  | some station, some .ok =>
    if payload.length = 7 ∧ -3 ≤ signedField payload 6 1 ∧ signedField payload 6 1 ≤ 6 then
      some { station := station, pocket := field payload 1 1, status := .ok,
             value := some (field payload 3 3, signedField payload 6 1) }
    else none
  | some station, some status =>
    if payload.length = 3 then
      some { station := station, pocket := field payload 1 1, status := status, value := none }
    else none
  | _, _ => none

/-! ### Table entries (R107, R110 to R116, R162) -/

inductive TableKind where
  | dial | station | outlet | cls | lot | link
  deriving DecidableEq, Repr

def TableKind.ofByte (b : Byte) : Option TableKind :=
  match b.toNat with
  | 1 => some .dial | 2 => some .station | 3 => some .outlet | 4 => some .cls | 5 => some .lot | 6 => some .link
  | _ => none

/-- LEN of a TABLE_WRITE (R162). -/
def TableKind.writeLen : TableKind → Nat
  | .dial => 6 | .station => 5 | .outlet => 20 | .cls => 10 | .lot => 14 | .link => 6

/-- How many entries the table has (R107). -/
def TableKind.entries : TableKind → Nat
  | .dial => 1 | .station => 3 | .outlet => 16 | .cls => 32 | .lot => 1 | .link => 1

/-- The number of the first field out of range, the first tested being number `from`. -/
def firstBad : Nat → List Bool → Option Nat
  | _, [] => none
  | n, true :: rest => firstBad (n + 1) rest
  | n, false :: _ => some n

def inRange (lo hi v : Nat) : Bool := decide (lo ≤ v) && decide (v ≤ hi)

def inRangeInt (lo hi v : Int) : Bool := decide (lo ≤ v) && decide (v ≤ hi)

/-- The range tests of an entry's fields in payload order (R110 to R115, R162). `fs` are the bytes after the index. -/
def TableKind.rangeTests (kind : TableKind) (fs : List Byte) : List Bool :=
  match kind with
  | .dial => [inRange 8 64 (field fs 0 1), inRange 4 63 (field fs 1 1), inRange 100 50000 (field fs 2 2)]
  | .station => [inRange 0 1 (field fs 0 1), inRange 0 63 (field fs 1 1), inRange 0 7 (field fs 2 1)]
  | .outlet =>
    [inRange 0 1 (field fs 0 1), inRange 0 63 (field fs 1 1), inRange 0 1 (field fs 2 1),
     inRange 0 50000 (field fs 3 2), inRange 50 20000 (field fs 5 2), inRange 100 20000 (field fs 7 2),
     inRange 0 60000 (field fs 9 2), inRange 1000 60000 (field fs 11 2), inRange 1 65535 (field fs 13 2),
     inRange 0 15 (field fs 15 1) || field fs 15 1 == 0xFF, inRange 0 15 (field fs 16 1), inRange 0 1 (field fs 17 1)]
  | .cls =>
    [inRange 0 1 (field fs 0 1), inRangeInt (-999999) 999999 (signedField fs 1 3),
     inRangeInt (-999999) 999999 (signedField fs 4 3), inRange 0 15 (field fs 7 1)]
  | .lot =>
    [inRange 1 16777215 (field fs 0 3), inRangeInt (-3) 6 (signedField fs 3 1), inRange 1 999999 (field fs 4 3),
     inRange 0 15 (field fs 7 1), inRange 0 15 (field fs 8 1), inRange 0 15 (field fs 9 1), inRange 0 15 (field fs 10 1),
     inRange 0 1 (field fs 11 1)]
  | .link => [inRange 2 16 (field fs 0 1), inRange 0 15 (field fs 1 1), inRange 10 1000 (field fs 2 2)]

def DialEntry.ofBytes (fs : List Byte) : DialEntry :=
  { pockets := field fs 0 1, checkOffset := field fs 1 1, checkDelay := field fs 2 2 }

def StationEntry.ofBytes (fs : List Byte) : StationEntry :=
  { enabled := field fs 0 1 == 1, offset := field fs 1 1, allowance := field fs 2 1 }

def OutletEntry.ofBytes (fs : List Byte) : OutletEntry :=
  { enabled := field fs 0 1 == 1, offset := field fs 1 1, mode := if field fs 2 1 = 1 then .gated else .pulse,
    fireDelay := field fs 3 2, pulseWidth := field fs 5 2, ackLimit := field fs 7 2, flightMin := field fs 9 2,
    flightMax := field fs 11 2, capacity := field fs 13 2,
    overflow := if field fs 15 1 = 0xFF then none else some (Fin.ofNat 16 (field fs 15 1)),
    missLimit := field fs 16 1, sweep := field fs 17 1 == 1 }

def ClassEntry.ofBytes (fs : List Byte) : ClassEntry :=
  { enabled := field fs 0 1 == 1, lo := signedField fs 1 3, hi := signedField fs 4 3,
    outlet := Fin.ofNat 16 (field fs 7 1) }

def LotEntry.ofBytes (fs : List Byte) : LotEntry :=
  { nominalMantissa := field fs 0 3, nominalExponent := signedField fs 3 1, driftLimit := field fs 4 3,
    contactReject := Fin.ofNat 16 (field fs 7 1), outOfTolerance := Fin.ofNat 16 (field fs 8 1),
    driftReject := Fin.ofNat 16 (field fs 9 1), retest := Fin.ofNat 16 (field fs 10 1), abandon := field fs 11 1 == 1 }

def LinkEntry.ofBytes (fs : List Byte) : LinkEntry :=
  { holdOn := field fs 0 1, holdOff := field fs 1 1, gapLimit := field fs 2 2 }

/-- A whole entry replaces the staged one (R116); `index` lies in the table's range. -/
def TableSet.write (t : TableSet) (kind : TableKind) (index : Nat) (fs : List Byte) : TableSet :=
  match kind with
  | .dial => { t with dial := some (.ofBytes fs) }
  | .station => { t with stations := t.stations.setIfInBounds index (some (.ofBytes fs)) }
  | .outlet => { t with outlets := t.outlets.setIfInBounds index (some (.ofBytes fs)) }
  | .cls => { t with classes := t.classes.setIfInBounds index (some (.ofBytes fs)) }
  | .lot => { t with lot := some (.ofBytes fs) }
  | .link => { t with link := some (.ofBytes fs) }

def DialEntry.bytes (e : DialEntry) : List Byte := bytesOf 1 e.pockets ++ bytesOf 1 e.checkOffset ++ bytesOf 2 e.checkDelay

def StationEntry.bytes (e : StationEntry) : List Byte :=
  flagByte e.enabled :: bytesOf 1 e.offset ++ bytesOf 1 e.allowance

def OutletEntry.bytes (e : OutletEntry) : List Byte :=
  flagByte e.enabled :: bytesOf 1 e.offset ++ flagByte (e.mode == .gated) :: bytesOf 2 e.fireDelay
    ++ bytesOf 2 e.pulseWidth ++ bytesOf 2 e.ackLimit ++ bytesOf 2 e.flightMin ++ bytesOf 2 e.flightMax
    ++ bytesOf 2 e.capacity ++ bytesOf 1 (match e.overflow with | some m => m.val | none => 0xFF)
    ++ bytesOf 1 e.missLimit ++ [flagByte e.sweep]

def ClassEntry.bytes (e : ClassEntry) : List Byte :=
  flagByte e.enabled :: signedBytesOf 3 e.lo ++ signedBytesOf 3 e.hi ++ bytesOf 1 e.outlet.val

def LotEntry.bytes (e : LotEntry) : List Byte :=
  bytesOf 3 e.nominalMantissa ++ signedBytesOf 1 e.nominalExponent ++ bytesOf 3 e.driftLimit
    ++ bytesOf 1 e.contactReject.val ++ bytesOf 1 e.outOfTolerance.val ++ bytesOf 1 e.driftReject.val
    ++ bytesOf 1 e.retest.val ++ [flagByte e.abandon]

def LinkEntry.bytes (e : LinkEntry) : List Byte := bytesOf 1 e.holdOn ++ bytesOf 1 e.holdOff ++ bytesOf 2 e.gapLimit

/-- The bytes of one entry, or none when it is absent (R124). -/
def TableSet.read (t : TableSet) (kind : TableKind) (index : Nat) : Option (List Byte) :=
  match kind with
  | .dial => t.dial.map DialEntry.bytes
  | .station => (t.stations[index]?).join.map StationEntry.bytes
  | .outlet => (t.outlets[index]?).join.map OutletEntry.bytes
  | .cls => (t.classes[index]?).join.map ClassEntry.bytes
  | .lot => t.lot.map LotEntry.bytes
  | .link => t.link.map LinkEntry.bytes

end Sys2Proof.Machine
end

