-- ==== Sys2Proof/Machine/Flags.lean ====
section
/-! DEFINITION. Flags and lines: the Notice Unit's flags (R180 to R183), ATTN, HOLD (R168), the EJ lines, the FLAGS byte
and the start of a transmission (R171). -/

namespace Sys2Proof.Machine

/-! ### Lines -/

/-- R183: ATTN is active exactly when some pending condition is unmasked; R142: inactive while held in reset. -/
def State.attn (s : State) : Bool :=
  !s.held && Condition.all.any fun c => s.notices[c.index].pending && !s.notices[c.index].masked

/-- R69: EJ is active in PULSE and in STROBE. -/
def Drive.active : Drive → Bool
  | .quiet => false | .pulse _ => true | .strobe _ _ => true

/-- The level of an outlet's EJ line (R69). -/
def State.ej (s : State) (n : Fin 16) : Bool := s.outlets[n].drive.active

/-- The defaults of the LINK record (R115). -/
def LinkEntry.default : LinkEntry := { holdOn := 12, holdOff := 4, gapLimit := 50 }

/-- R115: the active LINK record, or the defaults. -/
def State.link (s : State) : LinkEntry := (s.tables.active.bind TableSet.link).getD .default

/-- R168: HOLD by the inbound occupancy, with its hysteresis. -/
def holdLevel (link : LinkEntry) (occupancy : Nat) (level : Bool) : Bool :=
  if link.holdOn ≤ occupancy then true else if occupancy ≤ link.holdOff then false else level

/-- R168, R123: HOLD is judged. -/
def judgeHold (s : State) : State :=
  { s with lrx := { s.lrx with hold := holdLevel s.link s.lrx.inbound.length s.lrx.hold } }

/-- R167, R169: the inbound queue changes, and HOLD is judged at each append and removal. -/
def setInbound (frames : List InFrame) (s : State) : State :=
  judgeHold { s with lrx := { s.lrx with inbound := frames } }

/-! ### Notice conditions -/

/-- R180, R181: a raising sets pending and the detail, and owes a frame when pending goes from clear to set, unmasked. -/
def NoticeCell.raised (cell : NoticeCell) (detail : Nat) : NoticeCell :=
  { cell with pending := true, detail := detail, owed := cell.owed || (!cell.pending && !cell.masked) }

/-- R180: a block raises a condition. -/
def raiseNotice (c : Condition) (detail : Nat) (s : State) : State :=
  { s with notices := s.notices.set c.index (s.notices[c.index].raised detail) }

/-- Bit `i` of a condition set (R178). -/
def inSet (set i : Nat) : Bool := set.testBit i

/-- R178, R181: a NOTICE_ACK clears the pending flags it names, and what they owe. -/
def ackNotices (set : Nat) (s : State) : State :=
  { s with notices := Vector.ofFn fun i =>
      if inSet set i.val then { s.notices[i] with pending := false, owed := false } else s.notices[i] }

/-- R181: a cell under a new mask flag: masking withdraws, unmasking a pending condition owes. -/
def NoticeCell.withMask (cell : NoticeCell) (masked : Bool) : NoticeCell :=
  { cell with masked := masked,
              owed := if masked then false else cell.owed || (cell.masked && cell.pending) }

/-- R178: a NOTICE_MASK replaces the whole mask. -/
def maskNotices (set : Nat) (s : State) : State :=
  { s with notices := Vector.ofFn fun i => s.notices[i].withMask (inSet set i.val) }

/-- A set of conditions as a word, bit n for condition n (R173). -/
def setWord (has : Condition → Bool) : Nat :=
  (Condition.all.map fun c => if has c then 2 ^ c.index.val else 0).sum

def State.pendingWord (s : State) : Nat := setWord fun c => s.notices[c.index].pending

def State.maskWord (s : State) : Nat := setWord fun c => s.notices[c.index].masked

/-- R184: after every reset START is pending with the reset cause; its frame has been queued. -/
def noticesAfterReset (cause : ResetCause) : Vector NoticeCell 11 :=
  (Vector.replicate 11 NoticeCell.clear).set 0 { pending := true, masked := false, owed := false, detail := cause.code }

/-- The NOTICE frame of a condition, TAG 0 (R182). -/
def noticeFrame (c : Condition) (detail : Nat) : OutFrame := { tag := 0, body := .notice c detail, flags := none }

/-- R182: one owed condition's frame is queued while the outbound queue holds fewer than 32. -/
def queueNotice (p : Vector NoticeCell 11 × LineTransmitter) (c : Condition) : Vector NoticeCell 11 × LineTransmitter :=
  if p.1[c.index].owed ∧ p.2.outbound.length < Config.outboundLimit then
    (p.1.set c.index { p.1[c.index] with owed := false },
     { p.2 with outbound := p.2.outbound ++ [noticeFrame c p.1[c.index].detail] })
  else p

/-- R182, R170: the owed frames in order of condition number, one to each place. -/
def queueOwed (s : State) : State :=
  { s with notices := (Condition.all.foldl queueNotice (s.notices, s.ltx)).1,
           ltx := (Condition.all.foldl queueNotice (s.notices, s.ltx)).2 }

/-! ### The FLAGS byte and the start of a transmission (R171) -/

/-- FLAGS: bit 0 REJECT, bit 1 OVERRUN, bit 2 LOST, bit 3 ATTN (R161). -/
def flagsByte (reject overrun lost attn : Bool) : Byte :=
  BitVec.ofNat 8 ((if reject then 1 else 0) + (if overrun then 2 else 0) + (if lost then 4 else 0)
    + (if attn then 8 else 0))

/-- R171: with TXD idle and a frame at the head, its transmission begins, not before TXD became idle: FLAGS are stamped and
the three flags cleared. -/
def LineTransmitter.start (l : LineTransmitter) (rate : BitRate) (now : Nat) (attn : Bool) : LineTransmitter :=
  match l.txd, l.outbound with
  | .idle since, f :: rest =>
    let began := max (Config.ticksPerUs * now) since
    { outbound := { f with flags := some (flagsByte l.reject l.overrun l.lost attn) } :: rest,
      txd := .sending began (began + f.duration rate), reject := false, overrun := false, lost := false }
  | _, _ => l

def startTransmission (s : State) : State := { s with ltx := s.ltx.start s.rate s.now s.attn }

end Sys2Proof.Machine
end

