-- ==== Sys2Proof/Machine/Ops.lean ====
section
/-! DEFINITION. The operations that the blocks share: time, tables, records and outlets, releases and strands, reports and
bookings, raising a fault, the clearance stages, and the end of an event. -/

namespace Sys2Proof.Machine

/-! ### Time (log 1, log 2) -/

/-- An event comes at `time`, or at once when that has passed. -/
def advanceTo (time : Nat) (s : State) : State := { s with now := max s.now time }

/-! ### Engine states (R126) -/

/-- A lot is open in SORTING, CLEARING and HALTED. -/
def State.lotOpen (s : State) : Bool :=
  match s.sup.engine with
  | .unconfigured => false | .ready => false | .sorting => true | .clearing => true | .halted => true

/-- Fires may begin in SORTING and CLEARING. -/
def State.firesAllowed (s : State) : Bool :=
  match s.sup.engine with
  | .unconfigured => false | .ready => false | .sorting => true | .clearing => true | .halted => false

/-- The engine is in CLEARING, or in HALTED with return state CLEARING. -/
def State.isClearing (s : State) : Bool :=
  match s.sup.engine with
  | .unconfigured => false | .ready => false | .sorting => false | .clearing => true
  | .halted => s.sup.returnState == some .clearing

/-- A counter that holds at its largest value (R102). -/
def countUp (n : Nat) : Nat := min (n + 1) Config.countMax

/-! ### The active tables (R109) -/

/-- What a DIAL record that is absent reads as; an engine with a lot open always holds one (R107, log 22). -/
def DialEntry.unset : DialEntry := { pockets := 8, checkOffset := 4, checkDelay := 100 }

def State.dial (s : State) : DialEntry := (s.tables.active.bind TableSet.dial).getD .unset

/-- Z (R1). -/
def State.z (s : State) : Nat := s.dial.checkOffset

/-- An enabled station of a set; absent and not enabled entries read alike (R107). -/
def TableSet.station (t : TableSet) (st : Station) : Option StationEntry :=
  t.stations[st.index].filter StationEntry.enabled

/-- An enabled outlet of a set (R107). -/
def TableSet.outlet (t : TableSet) (n : Fin 16) : Option OutletEntry := t.outlets[n].filter OutletEntry.enabled

def State.station (s : State) (st : Station) : Option StationEntry := s.tables.active.bind fun t => t.station st

def State.outletEntry (s : State) (n : Fin 16) : Option OutletEntry := s.tables.active.bind fun t => t.outlet n

def State.lotEntry (s : State) : Option LotEntry := s.tables.active.bind TableSet.lot

/-- The outlet numbers in order. -/
def allOutlets : List (Fin 16) := [0, 1, 2, 3, 4, 5, 6, 7, 8, 9, 10, 11, 12, 13, 14, 15]

/-- Whether an enabled outlet carries the sweep flag (R112). -/
def State.isSweep (s : State) (n : Fin 16) : Bool := (s.outletEntry n).any OutletEntry.sweep

/-- The sweep outlet (R91, R120 check 6); outlet 0 stands in where no table names one (log 22). -/
def State.sweepOutlet (s : State) : Fin 16 := (allOutlets.find? s.isSweep).getD 0

/-! ### Pocket numbers (R2) -/

/-- (load_pocket − k) mod P. -/
def pocketNumber (pockets loadPocket k : Nat) : Nat := (((loadPocket : Int) - (k : Int)) % (pockets : Int)).toNat

/-- The pocket at ring offset `k`; with load_pocket absent 0 stands in for it (log 22). -/
def State.pocketAt (s : State) (k : Nat) : Nat := pocketNumber s.dial.pockets (s.tracker.loadPocket.getD 0) k

/-! ### Outlet records -/

/-- A change of one outlet record. -/
def modOutlet (n : Fin 16) (f : Outlet → Outlet) (s : State) : State :=
  { s with outlets := s.outlets.set n (f s.outlets[n]) }

/-- A change of every outlet record. -/
def mapOutlets (f : Fin 16 → Outlet → Outlet) (s : State) : State :=
  { s with outlets := Vector.ofFn fun n => f n s.outlets[n] }

/-! ### Pocket records -/

/-- The name the Tracker gives the Outlet Unit (R69). -/
def PocketRecord.name (r : PocketRecord) : RecordName :=
  match r.seq with
  | some q => .numbered q
  | none => .unnumbered r.ident

/-- A record without history (R4). -/
def PocketRecord.fresh (seq : Option Nat) (ident : Nat) (phase : Phase) : PocketRecord :=
  { seq := seq, ident := ident, phase := phase, counted := false, checked := false, results := [], provisional := none,
    finalClass := none, reason := none, target := none, deviation := none, drift := none, saturated := false }

/-- Whether a record in this phase stands in the accounting when counted, FIRING's entry aside (R6). -/
def Phase.stands : Phase → Bool
  | .held => true | .decided => true | .stranded => true | .retained => true
  | .void => false | .open => false | .empty => false | .firing => false | .gone => false | .lost => false

/-- A counted record in HELD, DECIDED, STRANDED or RETAINED (R104). -/
def PocketRecord.standing (r : PocketRecord) : Bool := r.counted && r.phase.stands

/-- The record becomes STRANDED; target and hop count are removed (R4, R59). -/
def PocketRecord.strand (reason : Reason) (r : PocketRecord) : PocketRecord :=
  { r with phase := .stranded, reason := some reason, target := none }

/-- The record takes a phase outside DECIDED and FIRING and keeps its reason; target and hop count are removed (R4). -/
def PocketRecord.settle (phase : Phase) (r : PocketRecord) : PocketRecord := { r with phase := phase, target := none }

/-- A change of the ring. -/
def setRing (ring : List PocketRecord) (s : State) : State := { s with tracker := { s.tracker with ring := ring } }

/-- A change of the record at one ring offset. -/
def modRing (k : Nat) (f : PocketRecord → PocketRecord) (s : State) : State := setRing (s.tracker.ring.modify k f) s

/-- A change of the record at one place of the stack, 0 being the top. -/
def modStack (d : Nat) (f : PocketRecord → PocketRecord) (s : State) : State :=
  { s with tracker := { s.tracker with stack := s.tracker.stack.modify d f } }

/-- The ring offset at which a named record stands (R7). -/
def State.ringOffset (s : State) (name : RecordName) : Option Nat :=
  s.tracker.ring.findIdx? fun r => r.name == name

/-- Where a named FIRING record stands (R7, R84): the ring is searched, then the stack. -/
inductive Place where
  | ring (k : Nat)
  | stack (d : Nat)
  deriving DecidableEq, Repr

def isFiring (name : RecordName) (r : PocketRecord) : Bool := r.name == name && r.phase == .firing

def State.firingPlace (s : State) (name : RecordName) : Option Place :=
  match s.tracker.ring.findIdx? (isFiring name) with
  | some k => some (.ring k)
  | none => (s.tracker.stack.findIdx? (isFiring name)).map .stack

def modPlace (p : Place) (f : PocketRecord → PocketRecord) (s : State) : State :=
  match p with
  | .ring k => modRing k f s
  | .stack d => modStack d f s

/-- The pocket of a record by its place (R2): stack depth 1 is the top. -/
def State.pocketOf (s : State) (p : Place) : Nat :=
  match p with
  | .ring k => s.pocketAt k
  | .stack d => s.pocketAt (s.z + (d + 1))

/-! ### Slots and claims (R69, R78 to R81) -/

/-- The record a slot names. -/
def Slot.name : Slot → Option RecordName
  | .free => none | .delay name _ => some name | .due name => some name

/-- The record whose strobe claim a drive holds. -/
def Drive.claim : Drive → Option RecordName
  | .quiet => none | .pulse _ => none | .strobe _ claim => claim

/-- An outlet forgets a record: its slot is ended and its claim withdrawn. -/
def Outlet.forget (name : RecordName) (o : Outlet) : Outlet :=
  { o with slot := if o.slot.name = some name then .free else o.slot,
           drive := match o.drive with
             | .strobe expires (some claimed) => .strobe expires (if claimed = name then none else some claimed)
             | .strobe expires none => .strobe expires none
             | .pulse ends => .pulse ends
             | .quiet => .quiet }

/-- R69: a named record leaves the phase in which an outlet holds it, or leaves the ring. -/
def forget (name : RecordName) (s : State) : State := mapOutlets (fun _ o => o.forget name) s

/-- R78 to R81: every slot in DELAY or DUE is ended. -/
def endSlots (s : State) : State := mapOutlets (fun _ o => { o with slot := .free }) s

/-- R130, R155: every slot, pulse and strobe is ended. -/
def stopOutlets (s : State) : State := mapOutlets (fun _ o => { o with slot := .free, drive := .quiet }) s

/-- R59: the target outlet of a DECIDED record loses 1 from reserved, and no outlet holds the record any more. -/
def release (r : PocketRecord) (s : State) : State :=
  match r.target with
  | some t => forget r.name (modOutlet t.outlet (fun o => { o with reserved := o.reserved - 1 }) s)
  | none => forget r.name s

/-- A release when the record is DECIDED. -/
def releaseIfDecided (r : PocketRecord) (s : State) : State := if r.phase = .decided then release r s else s

/-! ### The outbound queue (R170) -/

/-- A frame joins the outbound queue; its producer has made sure of a place. -/
def enqueue (tag : Byte) (body : OutBody) (s : State) : State :=
  { s with ltx := { s.ltx with outbound := s.ltx.outbound ++ [{ tag := tag, body := body, flags := none }] } }

/-- R170: a SORT_REPORT is admitted below 28, or is discarded and sets LOST. -/
def LineTransmitter.offer (l : LineTransmitter) (r : SortReport) : LineTransmitter :=
  if l.outbound.length < Config.reportLimit then
    { l with outbound := l.outbound ++ [{ tag := 0, body := .sortReport r, flags := none }] }
  else { l with lost := true }

def offerReport (r : SortReport) (s : State) : State := { s with ltx := s.ltx.offer r }

/-- A report made by the Tracker (R88, R100): the record's fields as they stand, at its target, or at the sweep outlet
with hop count 5. -/
def State.trackerReport (s : State) (r : PocketRecord) (pocket : Nat) : SortReport :=
  { pocket := pocket, outcome := .unaccounted, outlet := (r.target.map Route.outlet).getD s.sweepOutlet,
    hops := (r.target.map Route.hops).getD Config.sweepHops, seq := r.seq, finalClass := r.finalClass, reason := r.reason,
    deviation := r.deviation, drift := r.drift, flightTime := none }

/-- A report made for a confirmation entry (R88). -/
def Entry.report (e : Entry) (n : Fin 16) (outcome : SortOutcome) (pocket : Nat) (flightTime : Option Nat) : SortReport :=
  { pocket := pocket, outcome := outcome, outlet := n, hops := e.hops, seq := e.name.seq, finalClass := e.finalClass,
    reason := e.reason, deviation := e.deviation, drift := e.drift, flightTime := flightTime }

/-- R100: unaccounted + 1, notice UNACCOUNTED with the pocket, and a SORT_REPORT offered. -/
def book (pocket : Nat) (report : SortReport) (s : State) : State :=
  offerReport report (raiseNotice .unaccounted pocket
    { s with sup := { s.sup with unaccounted := countUp s.sup.unaccounted } })

/-- A booking made by the Tracker for a record with its pocket. -/
def bookRecord (r : PocketRecord) (pocket : Nat) (s : State) : State := book pocket (s.trackerReport r pocket) s

/-! ### Faults (R133 to R136) -/

/-- R134, R135: a later fault joins the list, or sets overflow when the list holds 4. -/
def FaultRecord.append (f : FaultRecord) (e : FaultEntry) : FaultRecord :=
  if f.later.length < Config.laterLimit then { f with later := f.later ++ [e] } else { f with overflow := true }

/-- R135, R136: the entry becomes the first fault and the engine enters HALTED; every slot is ended. -/
def enterHalted (ret : RunState) (e : FaultEntry) (s : State) : State :=
  raiseNotice .halted e.code.code (endSlots
    { s with sup := { s.sup with engine := .halted, returnState := some ret,
                                 faults := { s.sup.faults with first := some e } } })

/-- R135: a fault is raised, with the load pocket and the seq its rule gives. -/
def raiseFault (code : FaultCode) (pocket : Nat) (seq : Option Nat) (s : State) : State :=
  match s.sup.engine with
  | .sorting => enterHalted .sorting { code := code, loadPocket := pocket, seq := seq } s
  | .clearing => enterHalted .clearing { code := code, loadPocket := pocket, seq := seq } s
  | .halted =>
    { s with sup := { s.sup with faults := s.sup.faults.append { code := code, loadPocket := pocket, seq := seq } } }
  | .unconfigured => s
  | .ready => s

/-- R133: load_pocket as it stands when the fault is raised. -/
def State.faultPocket (s : State) : Nat := s.tracker.loadPocket.getD 0

/-! ### Clearance (R146 to R156) -/

/-- R149: a record that holds the run-out stage. -/
def PocketRecord.holdsRunOut (r : PocketRecord) : Bool := r.phase == .open || r.standing

def State.runOutComplete (s : State) : Bool := s.tracker.ring.all fun r => !r.holdsRunOut

/-- R153. -/
def State.settleComplete (s : State) : Bool :=
  allOutlets.all (fun n => s.outlets[n].queue.isEmpty) && s.tracker.ring.all fun r => !r.standing

/-- The clearance stage, when clearance is in progress. -/
def State.stage (s : State) : Option Stage := s.sup.clearance.map Clearance.stage

def setStage (stage : Stage) (s : State) : State :=
  { s with sup := { s.sup with clearance := s.sup.clearance.map fun c => { c with stage := stage } } }

/-- The counts of a lot as they stand (R132); a DISABLED outlet's total is 0. -/
def State.lotSummary (s : State) (kind : EndKind) : LotSummary :=
  { lotId := s.sup.lotId.getD 0, endKind := kind, present := s.sup.present, unaccounted := s.sup.unaccounted,
    recovered := s.sup.recovered, strays := s.sup.strays,
    totals := allOutlets.map fun n => s.outlets[n].lotTotal }

/-- R27, R131, R155: the check-delay timer stops and the ring and the stack are emptied. -/
def closeTracker (s : State) : State :=
  { s with tracker := { s.tracker with ring := [], stack := [], checkTimer := none } }

/-- R155: the lot closes by clearance, in the order the rule gives. -/
def closeLot (kind : EndKind) (s : State) : State :=
  let s := enqueue 0 (.lotSummary (s.lotSummary kind)) s
  let s := closeTracker (stopOutlets s)
  let s := { s with sup := { s.sup with clearance := none, engine := .ready } }
  raiseNotice .clearDone kind.code s

/-- R149: RUN_OUT completes. -/
def runOutStep (s : State) : State :=
  if s.stage = some .runOut ∧ s.runOutComplete then setStage .settle s else s

/-- R154: a wait in SUMMARY that a new entry or standing record ends. -/
def unsettleStep (s : State) : State :=
  if s.stage = some .summary ∧ ¬ s.settleComplete then setStage .settle s else s

/-- R153: SETTLE completes. -/
def settleStep (s : State) : State :=
  if s.stage = some .settle ∧ s.settleComplete then setStage .summary s else s

/-- R154: the end kind with which the lot can close now: stage SUMMARY, CLEARING, and a place in the outbound queue. -/
def State.closeKind (s : State) : Option EndKind :=
  match s.sup.clearance with
  | some c =>
    if c.stage = .summary ∧ s.sup.engine = .clearing ∧ s.ltx.outbound.length < Config.outboundLimit then
      some c.kind.endKind
    else none
  | none => none

/-- R154, R155: the SUMMARY stage closes the lot when it can. -/
def summaryStep (s : State) : State :=
  match s.closeKind with
  | some kind => closeLot kind s
  | none => s

/-- The stage tests at the end of an event that changes records or queues (R149, R153, R154). -/
def advanceClearance (s : State) : State := summaryStep (settleStep (unsettleStep (runOutStep s)))

/-- R150: a tracked index moves the clearance count, which holds at ±65,535. -/
def countIndex (by_ : Int) (s : State) : State :=
  { s with sup := { s.sup with clearance := s.sup.clearance.map fun c =>
      { c with count := max (-Config.indexCountMax) (min Config.indexCountMax (c.count + by_)) } } }

/-! ### Waiting producers and the end of an event (R169, R170, R182) -/

/-- R169: when the Dispatcher serves a head frame. -/
def headServed (f : InFrame) (s : State) : Bool :=
  match RequestKind.ofByte f.kind with
  | some .meas => true
  | some .lotAbort => s.lrx.urgent.isEmpty && decide (s.ltx.outbound.length ≤ 30)
  | some _ => s.lrx.urgent.isEmpty && decide (s.ltx.outbound.length ≤ 31)
  | none => s.lrx.urgent.isEmpty && decide (s.ltx.outbound.length ≤ 31)

/-- R169: the head waits: its condition is not met (log 17), be it one that the event has brought forward (log 32). -/
def State.headWaits (s : State) : Bool :=
  match s.lrx.inbound with
  | f :: _ => !headServed f s
  | [] => false

/-- R170: a producer other than the Notice Unit waits for a place. -/
def State.producerWaits (s : State) : Bool :=
  !s.lrx.urgent.isEmpty || s.headWaits || (s.stage == some .summary && s.sup.engine == .clearing)

/-- R182: frames owed in this event are admitted in it when no other producer waits, as the event leaves the producers: a
head that the event itself brought forward counts (log 32). -/
def queueOwedInEvent (s : State) : State := if s.producerWaits then s else queueOwed s

/-- The end of an event that moves no record: owed notices, then the start of a transmission (log 13, log 14). -/
def finishLine (s : State) : State := startTransmission (queueOwedInEvent s)

/-- The end of an event that can move records: the stage tests come first. -/
def finishEvent (s : State) : State := finishLine (advanceClearance s)

/-- R142: while the engine is held in reset it takes no frame and no edge. -/
def whenRunning (f : State → State) (s : State) : State := if s.held then s else f s

/-- Edges that a lot state takes and the other states ignore (R10, R77, R83). -/
def inLot (f : State → State) (s : State) : State := if s.lotOpen then f s else s

end Sys2Proof.Machine
end

