-- ==== Sys2Proof/Machine/Outlets.lean ====
section
/-! DEFINITION. The Outlet Unit: routing (R55 to R58), arrivals and fires (R70 to R76, R91 to R93), confirmations (R60,
R61, R84, R95), misses (R86, R87) and the commands of the outlets' timers and lines. -/

namespace Sys2Proof.Machine

/-! ### Routing -/

/-- R55, R58: whether a candidate can take a record that stands at `offset`. -/
def State.usable (s : State) (offset : Nat) (n : Fin 16) : Bool :=
  match s.outletEntry n with
  | some e =>
    e.sweep || (s.outlets[n].state == .open && decide (s.outlets[n].committed + s.outlets[n].reserved < e.capacity)
      && decide (offset < e.offset))
  | none => false

/-- R56: candidates along the overflow links, `left` hops being left; then the fall-back to the sweep outlet. -/
def State.routeFrom (s : State) (offset : Nat) : Nat → Nat → Fin 16 → Route
  | left, hops, n =>
    if s.usable offset n then { outlet := n, hops := hops }
    else
      match left, (s.outletEntry n).bind OutletEntry.overflow with
      | left' + 1, some next => s.routeFrom offset left' (hops + 1) next
      | _, _ => { outlet := s.sweepOutlet, hops := Config.sweepHops }

/-- R56: routing from a first candidate. -/
def State.route (s : State) (first : Fin 16) (offset : Nat) : Route := s.routeFrom offset Config.maxHops 0 first

/-- R46: the outlet that routing starts from; outlet 0 stands in where no table names one (log 22). -/
def State.firstCandidate (s : State) (v : Verdict) : Fin 16 :=
  match v with
  | .cls c => ((s.tables.active.bind fun t => t.classes[c]).map ClassEntry.outlet).getD 0
  | .contactReject => (s.lotEntry.map LotEntry.contactReject).getD 0
  | .outOfTolerance => (s.lotEntry.map LotEntry.outOfTolerance).getD 0
  | .driftReject => (s.lotEntry.map LotEntry.driftReject).getD 0
  | .retest => (s.lotEntry.map LotEntry.retest).getD 0

/-- R47, R57: the final verdict is written, an outlet is chosen and reserved, and the record becomes DECIDED. -/
def finalVerdict (k : Nat) (v : Verdict) (reason : Reason) (s : State) : State :=
  let route := s.route (s.firstCandidate v) k
  modRing k (fun r => { r with finalClass := some v, reason := some reason, target := some route, phase := .decided })
    (modOutlet route.outlet (fun o => { o with reserved := o.reserved + 1 }) s)

/-! ### Fires -/

/-- R82: the entry for a record at the fire. -/
def PocketRecord.entry (r : PocketRecord) (hops fireTime pocket : Nat) : Entry :=
  { name := r.name, counted := r.counted, fireTime := fireTime, pocket := pocket, finalClass := r.finalClass,
    reason := r.reason, hops := hops, deviation := r.deviation, drift := r.drift }

/-- R92: the route of a record as it fires: its own when DECIDED, else the firing outlet with hop count 5. -/
def PocketRecord.fireRoute (r : PocketRecord) (n : Fin 16) : Route :=
  if r.phase = .decided then r.target.getD { outlet := n, hops := 0 } else { outlet := n, hops := Config.sweepHops }

/-- R73, R75, R92: the fire of a ring record is recorded: the entry joins the tail, the record becomes FIRING, and a
record that held no reservation takes one as it fires. -/
def recordFire (n : Fin 16) (k : Nat) (r : PocketRecord) (s : State) : State :=
  modRing k (fun r' => { r' with phase := .firing, target := some (r.fireRoute n) })
    (modOutlet n (fun o =>
      { o with queue := o.queue ++ [r.entry (r.fireRoute n).hops s.now (s.pocketAt k)],
               reserved := if r.phase = .decided then o.reserved else o.reserved + 1 }) s)

/-- The phases for which an outlet prepares a fire (R70, R91); a slot names no other record (log 22). -/
def Phase.fireable : Phase → Bool
  | .decided => true | .stranded => true | .void => true
  | .open => false | .empty => false | .held => false | .firing => false | .gone => false | .retained => false
  | .lost => false

/-- R71 test 1: the record is stranded for BACKLOG, and a reservation it holds is released. -/
def backlog (n : Fin 16) (name : RecordName) (s : State) : State :=
  let s := modOutlet n (fun o => { o with slot := .free }) s
  match s.ringOffset name with
  | some k =>
    match s.tracker.ring[k]? with
    | some r => if r.phase.fireable then modRing k (.strand .backlog) (releaseIfDecided r s) else s
    | none => s
  | none => s

/-- R72, R73, R75: a fire begins for a named record, as a pulse or as a strobe. -/
def beginFire (n : Fin 16) (name : RecordName) (s : State) : State :=
  let s := modOutlet n (fun o => { o with slot := .free }) s
  match s.outletEntry n, s.ringOffset name with
  | some e, some k =>
    match s.tracker.ring[k]? with
    | some r =>
      if r.phase.fireable then
        match e.mode with
        | .pulse => recordFire n k r (modOutlet n (fun o => { o with drive := .pulse (s.now + e.pulseWidth) }) s)
        | .gated => modOutlet n (fun o => { o with drive := .strobe (s.now + e.ackLimit) (some name) }) s
      else s
    | none => s
  | _, _ => s

/-- R71: whether the fire can begin now. -/
def fireTests (n : Fin 16) (name : RecordName) (s : State) : State :=
  if Config.queueLimit ≤ s.outlets[n].queue.length then backlog n name s
  else if s.outlets[n].drive = .quiet then beginFire n name s
  else modOutlet n (fun o => { o with slot := .due name }) s

/-- R71: the tests are made again when the drive returns to QUIET with the slot DUE; a fire begins only in SORTING or
CLEARING (R72). -/
def retestDue (n : Fin 16) (s : State) : State :=
  match s.outlets[n].slot with
  | .due name => if s.firesAllowed then fireTests n name s else s
  | .delay _ _ => s
  | .free => s

/-- R70: the slot goes to DELAY; a fire delay of 0 expires at once. -/
def startDelay (n : Fin 16) (name : RecordName) (fireDelay : Nat) (s : State) : State :=
  if fireDelay = 0 then fireTests n name s
  else modOutlet n (fun o => { o with slot := .delay name (s.now + fireDelay) }) s

/-! ### Passes, arrivals and the sweep hand-off -/

/-- Whether a record is DECIDED for an outlet. -/
def PocketRecord.decidedFor (r : PocketRecord) (n : Fin 16) : Bool :=
  r.phase == .decided && (r.target.map Route.outlet) == some n

/-- R16: a record that has just left its target outlet's offset in DECIDED. -/
def pass (n : Fin 16) (s : State) : State :=
  match s.outletEntry n with
  | some e =>
    match s.tracker.ring[e.offset + 1]? with
    | some r => if r.decidedFor n then modRing (e.offset + 1) (.strand .fireCancelled) (release r s) else s
    | none => s
  | none => s

/-- R70: an arrival at an outlet that is not the sweep outlet. -/
def arrival (n : Fin 16) (e : OutletEntry) (r : PocketRecord) (s : State) : State :=
  if ¬ s.firesAllowed then s
  else
    match s.outlets[n].state with
    | .open => startDelay n r.name e.fireDelay s
    | .full => startDelay n r.name e.fireDelay s
    | .faulted => modRing e.offset (.strand .outletFaulted) (release r s)
    | .disabled => s

/-- R91: whether the sweep outlet fires for a record. -/
def PocketRecord.sweepable (r : PocketRecord) (n : Fin 16) : Bool :=
  match r.phase with
  | .decided => r.decidedFor n
  | .stranded => true
  | .void => true
  | .open => false | .held => false | .empty => false | .firing => false | .gone => false | .retained => false
  | .lost => false

/-- R17, R18: what an outlet is handed of the record that has just moved to its offset. -/
def handOff (n : Fin 16) (s : State) : State :=
  match s.outletEntry n with
  | some e =>
    match s.tracker.ring[e.offset]? with
    | some r =>
      if s.outlets[n].drive.claim = some r.name then s
      else if e.sweep then
        if s.firesAllowed && r.sweepable n then startDelay n r.name e.fireDelay s else s
      else if r.decidedFor n then arrival n e r s
      else s
    | none => s
  | none => s

/-- R16, R78: the passes, and the end of every slot. -/
def passes (s : State) : State := endSlots (allOutlets.foldl (fun s n => pass n s) s)

/-- R17, R18: the arrivals and the sweep hand-off. -/
def arrivals (s : State) : State := allOutlets.foldl (fun s n => handOff n s) s

/-! ### Outlet faults and misses -/

/-- R81: the record of a DELAY or DUE slot is stranded as its outlet enters FAULTED. -/
def strandSlot (n : Fin 16) (s : State) : State :=
  match s.outlets[n].slot.name with
  | some name =>
    let s := modOutlet n (fun o => { o with slot := .free }) s
    match s.ringOffset name with
    | some k =>
      match s.tracker.ring[k]? with
      | some r => if r.phase = .decided then modRing k (.strand .outletFaulted) (release r s) else s
      | none => s
    | none => s
  | none => s

/-- R64, R81: entry into FAULTED raises OUTLET_FAULT and ends a slot; an outlet already FAULTED raises nothing. -/
def faultOutlet (n : Fin 16) (s : State) : State :=
  if s.outlets[n].state = .faulted then strandSlot n s
  else strandSlot n (raiseNotice .outletFault n.val (modOutlet n (fun o => { o with state := .faulted }) s))

/-- R54, R86: reserved − 1 and miss run + 1, which holds at 15. -/
def Outlet.miss (o : Outlet) : Outlet :=
  { o with reserved := o.reserved - 1, missRun := min (o.missRun + 1) Config.missRunMax }

/-- R86: the miss limit, when not 0, is reached (log 20). -/
def State.missLimitReached (s : State) (n : Fin 16) : Bool :=
  match s.outletEntry n with
  | some e => e.missLimit != 0 && decide (e.missLimit ≤ s.outlets[n].missRun)
  | none => false

/-- R86, R97: the miss accounting of one removed entry. -/
def accountMiss (n : Fin 16) (s : State) : State :=
  let s := modOutlet n Outlet.miss s
  if s.missLimitReached n then faultOutlet n s else s

/-- The outlet whose queue holds an entry for a name (R97, log 25). -/
def State.entryOutlet (s : State) (name : RecordName) : Option (Fin 16) :=
  allOutlets.find? fun n => s.outlets[n].queue.any fun e => e.name == name

/-- R97, R99: a record's entry is removed as a miss wherever it stands. -/
def missEntryOf (name : RecordName) (s : State) : State :=
  match s.entryOutlet name with
  | some n => accountMiss n (modOutlet n (fun o => { o with queue := o.queue.eraseP fun e => e.name == name }) s)
  | none => s

/-- R87: the fate of the part whose entry was missed. -/
def missFate (n : Fin 16) (e : Entry) (s : State) : State :=
  match s.firingPlace e.name with
  | some (.ring k) =>
    if (s.tracker.ring[k]?).any PocketRecord.checked then
      if e.counted then
        modRing k (.settle .lost) (book (s.pocketAt k) (e.report n .unaccounted (s.pocketAt k) none) s)
      else modRing k (.settle .void) s
    else modRing k (.strand .missedDrop) s
  | some (.stack d) =>
    if e.counted then
      modStack d (.settle .lost)
        (book (s.pocketOf (.stack d)) (e.report n .unaccounted (s.pocketOf (.stack d)) none) s)
    else modStack d (.settle .void) s
  | none => if e.counted then book e.pocket (e.report n .unaccounted e.pocket none) s else s

/-- R86, R87: the head entry is removed as a miss. -/
def missHead (n : Fin 16) (e : Entry) (rest : List Entry) (s : State) : State :=
  missFate n e (accountMiss n (modOutlet n (fun o => { o with queue := rest }) s))

/-! ### Confirmations -/

/-- R60, R61: the outlet record after a confirmation, under the capacity of its entry. -/
def Outlet.confirm (o : Outlet) (counted : Bool) (capacity : Nat) (rest : List Entry) : Outlet :=
  { o with queue := rest, committed := min (o.committed + 1) Config.committedMax, reserved := o.reserved - 1, missRun := 0,
           lotTotal := if counted then countUp o.lotTotal else o.lotTotal,
           state := if o.state = .open ∧ o.committed + 1 = capacity then .full else o.state }

/-- R60: an uncounted entry adds to recovered. -/
def countRecovered (counted : Bool) (s : State) : State :=
  { s with sup := { s.sup with recovered := if counted then s.sup.recovered else countUp s.sup.recovered } }

/-- R61, R95: what a confirmation that reaches capacity raises; `before` is committed before it. -/
def raiseFull (n : Fin 16) (e : Entry) (cfg : OutletEntry) (before : Nat) (s : State) : State :=
  let s := if before + 1 = cfg.capacity then raiseNotice .outletFull n.val s else s
  if cfg.sweep ∧ cfg.capacity ≤ min (before + 1) Config.committedMax then
    raiseFault .sweepFull s.faultPocket e.name.seq s
  else s

/-- The outcome that a confirmation reports (R84). -/
def confirmOutcome (e : Entry) (sweep : Bool) : SortOutcome :=
  if e.counted then (if sweep then .swept else .sorted) else .recovered

/-- R84: the record becomes GONE when it is found, and a SORT_REPORT is offered with the flight time. -/
def confirmRecord (n : Fin 16) (e : Entry) (sweep : Bool) (s : State) : State :=
  match s.firingPlace e.name with
  | some p =>
    offerReport (e.report n (confirmOutcome e sweep) (s.pocketOf p) (some (s.now - e.fireTime)))
      (modPlace p (.settle .gone) s)
  | none => offerReport (e.report n (confirmOutcome e sweep) e.pocket (some (s.now - e.fireTime))) s

/-- R60, R61, R84, R95: a drop confirms the head entry. -/
def confirmHead (n : Fin 16) (cfg : OutletEntry) (e : Entry) (rest : List Entry) (s : State) : State :=
  let before := s.outlets[n].committed
  confirmRecord n e cfg.sweep
    (raiseFull n e cfg before
      (countRecovered e.counted (modOutlet n (fun o => o.confirm e.counted cfg.capacity rest) s)))

/-- R83: strays + 1 and notice STRAY_DROP. -/
def strayDrop (n : Fin 16) (s : State) : State :=
  raiseNotice .strayDrop n.val { s with sup := { s.sup with strays := countUp s.sup.strays } }

/-- R83: a drop on an enabled outlet is attributed. -/
def takeDrop (n : Fin 16) (cfg : OutletEntry) (s : State) : State :=
  match s.outlets[n].queue with
  | e :: rest => if s.now - e.fireTime < cfg.flightMin then strayDrop n s else confirmHead n cfg e rest s
  | [] => strayDrop n s

/-! ### The commands -/

/-- R71: a DELAY slot's timer expires, in SORTING or CLEARING. -/
def onFireDelayExpiry (n : Fin 16) (s : State) : State :=
  match s.outlets[n].slot with
  | .delay name expires => if s.firesAllowed then finishEvent (fireTests n name (advanceTo expires s)) else s
  | .due _ => s
  | .free => s

/-- R74: the pulse ends; a DUE slot is tested again. -/
def onPulseEnd (n : Fin 16) (s : State) : State :=
  match s.outlets[n].drive with
  | .pulse ends => finishEvent (retestDue n (modOutlet n (fun o => { o with drive := .quiet }) (advanceTo ends s)))
  | .strobe _ _ => s
  | .quiet => s

/-- R75: the ACK of a strobe, whose claim may stand. -/
def answerStrobe (n : Fin 16) (claim : Option RecordName) (s : State) : State :=
  let s := modOutlet n (fun o => { o with drive := .quiet }) s
  match claim with
  | some name =>
    match s.ringOffset name with
    | some k =>
      match s.tracker.ring[k]? with
      | some r => if r.phase = .decided then recordFire n k r s else s
      | none => s
    | none => s
  | none => s

/-- R75, R77, R65: a rising edge on ACK. -/
def onAck (n : Fin 16) (s : State) : State :=
  if s.outlets[n].state = .disabled then s
  else
    match s.outlets[n].drive with
    | .strobe _ claim => finishEvent (retestDue n (answerStrobe n claim s))
    | .pulse _ => s
    | .quiet => s

/-- R76: the record that still holds the claim of a strobe that was not answered. -/
def strandClaim (claim : Option RecordName) (s : State) : State :=
  match claim with
  | some name =>
    match s.ringOffset name with
    | some k =>
      match s.tracker.ring[k]? with
      | some r => if r.phase = .decided then modRing k (.strand .outletFaulted) (release r s) else s
      | none => s
    | none => s
  | none => s

/-- R76: the ack timer expires with the drive in STROBE. -/
def onAckLimitExpiry (n : Fin 16) (s : State) : State :=
  match s.outlets[n].drive with
  | .strobe expires claim =>
    finishEvent (retestDue n (faultOutlet n (strandClaim claim
      (modOutlet n (fun o => { o with drive := .quiet }) (advanceTo expires s)))))
  | .pulse _ => s
  | .quiet => s

/-- R83, R65: a rising edge on DROP. -/
def onDrop (n : Fin 16) (s : State) : State :=
  if s.outlets[n].state = .disabled then s
  else
    match s.outletEntry n with
    | some cfg => finishEvent (takeDrop n cfg s)
    | none => s

/-- R86: the head entry's flight window closes. -/
def onFlightMaxMiss (n : Fin 16) (s : State) : State :=
  match s.outletEntry n, s.outlets[n].queue with
  | some cfg, e :: rest => finishEvent (missHead n e rest (advanceTo (e.fireTime + cfg.flightMax) s))
  | _, _ => s

/-- FIRE_DELAY_EXPIRY (R71). -/
def execFireDelayExpiry (outlet : Fin 16) (s : State) : Host.Outcome State Fault Refusal :=
  .next (whenRunning (onFireDelayExpiry outlet) s)

/-- PULSE_END (R74). -/
def execPulseEnd (outlet : Fin 16) (s : State) : Host.Outcome State Fault Refusal :=
  .next (whenRunning (onPulseEnd outlet) s)

/-- ACK (R75, R77): ignored in UNCONFIGURED and READY. -/
def execAck (time : Nat) (outlet : Fin 16) (s : State) : Host.Outcome State Fault Refusal :=
  .next (whenRunning (fun s => inLot (onAck outlet) (advanceTo time s)) s)

/-- ACK_LIMIT_EXPIRY (R76). -/
def execAckLimitExpiry (outlet : Fin 16) (s : State) : Host.Outcome State Fault Refusal :=
  .next (whenRunning (onAckLimitExpiry outlet) s)

/-- DROP (R83): ignored in UNCONFIGURED and READY. -/
def execDrop (time : Nat) (outlet : Fin 16) (s : State) : Host.Outcome State Fault Refusal :=
  .next (whenRunning (fun s => inLot (onDrop outlet) (advanceTo time s)) s)

/-- FLIGHT_MAX_MISS (R86): flight windows run while a lot is open. -/
def execFlightMaxMiss (outlet : Fin 16) (s : State) : Host.Outcome State Fault Refusal :=
  .next (whenRunning (inLot (onFlightMaxMiss outlet)) s)

end Sys2Proof.Machine
end

