-- ==== Sys2Proof/Machine/Tracker.lean ====
section
/-! DEFINITION. The Dial Tracker: forward and reverse indices (R10 to R21), the check sample and its cancellation (R96 to
R99), and the JAM line (R140). -/

namespace Sys2Proof.Machine

/-! ### The check position -/

/-- R99: what an unchecked record in a phase other than EMPTY, GONE, LOST and VOID gives up before it is RETAINED. -/
def prepareUnchecked (r : PocketRecord) (s : State) : State :=
  match r.phase with
  | .decided => release r s
  | .firing => missEntryOf r.name s
  | .held => s | .stranded => s | .open => s | .retained => s
  | .void => s | .empty => s | .gone => s | .lost => s

/-- R99: the phases that an unchecked record keeps without a fault. -/
def Phase.clearUnchecked : Phase → Bool
  | .empty => true | .gone => true | .lost => true | .void => true
  | .open => false | .held => false | .decided => false | .firing => false | .stranded => false | .retained => false

/-- R99: the record at Z is handled as unchecked. -/
def handleUnchecked (s : State) : State :=
  match s.tracker.ring[s.z]? with
  | some r =>
    if r.phase.clearUnchecked then s
    else raiseFault .sweepUnchecked s.faultPocket r.seq (modRing s.z (.settle .retained) (prepareUnchecked r s))
  | none => s

def stopCheckTimer (s : State) : State := { s with tracker := { s.tracker with checkTimer := none } }

/-- R11, R20: an index first ends a pending check sample. -/
def cancelCheck (s : State) : State :=
  match s.tracker.checkTimer with
  | some _ => handleUnchecked (stopCheckTimer s)
  | none => s

/-- R96: the record at Z is sampled. -/
def markChecked (s : State) : State := modRing s.z (fun r => { r with checked := true }) s

/-- R98: the record becomes RETAINED and fault PART_RETAINED is raised. -/
def retain (r : PocketRecord) (counted : Bool) (s : State) : State :=
  raiseFault .partRetained s.faultPocket r.seq
    (modRing s.z (fun r => { r with phase := .retained, target := none, counted := counted }) s)

/-- R96, R100: a counted record found clear is booked and becomes LOST. -/
def bookAtCheck (r : PocketRecord) (s : State) : State :=
  modRing s.z (.settle .lost) (bookRecord r (s.pocketAt s.z) s)

/-- R96, CHECK inactive. -/
def sampleClear (r : PocketRecord) (s : State) : State :=
  match r.phase with
  | .open => s | .void => s | .empty => s | .gone => s | .lost => s
  | .firing => s
  | .held => if r.counted then bookAtCheck r s else modRing s.z (.settle .void) s
  | .decided => if r.counted then bookAtCheck r (release r s) else modRing s.z (.settle .void) (release r s)
  | .stranded => if r.counted then bookAtCheck r s else modRing s.z (.settle .void) s
  | .retained => if r.counted then bookAtCheck r s else modRing s.z (.settle .lost) s

/-- R96 to R98, CHECK active. -/
def samplePresent (r : PocketRecord) (s : State) : State :=
  match r.phase with
  | .open => retain r false s | .void => retain r false s | .empty => retain r false s | .gone => retain r false s
  | .lost => retain r false s
  | .firing => retain r r.counted (missEntryOf r.name s)
  | .held => retain r r.counted s
  | .decided => retain r r.counted (release r s)
  | .stranded => retain r r.counted s
  | .retained => s

/-- R96: the sample for the record at Z. -/
def takeSample (check : Bool) (s : State) : State :=
  match s.tracker.ring[s.z]? with
  | some r => if check then samplePresent r (markChecked s) else sampleClear r (markChecked s)
  | none => s

/-- R96: the check-delay timer expires. -/
def onCheckSample (check : Bool) (s : State) : State :=
  match s.tracker.checkTimer with
  | some expires => finishEvent (takeSample check (stopCheckTimer (advanceTo expires s)))
  | none => s

/-! ### The forward index -/

/-- R8: a push drops the oldest record of a full stack. -/
def push (r : PocketRecord) (s : State) : State :=
  { s with tracker := { s.tracker with stack := (r :: s.tracker.stack).take Config.stackLimit } }

/-- R11: a RETAINED record retires as LOST, booked when counted; any other retires as it is. -/
def retire (r : PocketRecord) (s : State) : State :=
  if r.phase = .retained then
    push (r.settle .lost) (if r.counted then bookRecord r (s.pocketAt s.z) s else s)
  else push r s

/-- R5, R12: the seq of the next record made at offset 0. -/
def Tracker.issue (t : Tracker) : Option Nat :=
  match t.nextSeq with
  | some q => if q ≤ Config.seqMax then some q else none
  | none => none

/-- R4, R5, R12: a new record takes the seq, and next seq rises; a record without seq takes a name (log 18). -/
def newRecord (phase : Phase) (s : State) : State :=
  { s with tracker := { s.tracker with
      ring := PocketRecord.fresh s.tracker.issue (if s.tracker.issue.isSome then 0 else s.tracker.nextIdent) phase
        :: s.tracker.ring
      nextSeq := s.tracker.nextSeq.map fun q => min (q + 1) (Config.seqMax + 1)
      nextIdent := if s.tracker.issue.isSome then s.tracker.nextIdent else s.tracker.nextIdent + 1 } }

/-- R12, R21: load_pocket moves mod P. -/
def moveLoadPocket (by_ : Int) (s : State) : State :=
  { s with tracker := { s.tracker with
      loadPocket := s.tracker.loadPocket.map fun lp => (((lp : Int) + by_) % (s.dial.pockets : Int)).toNat } }

/-- R10 to R12: the ring moves up, the record leaving Z retires, and a new record is made. -/
def moveUp (s : State) : State :=
  let leaving := s.tracker.ring[s.z]?
  let s := setRing (s.tracker.ring.take s.z) s
  let s := match leaving with
    | some r => retire r s
    | none => s
  moveLoadPocket 1 (newRecord (if s.isClearing then .void else .open) s)

/-- R13: what a HOME mismatch makes of a ring record. -/
def PocketRecord.suspect (r : PocketRecord) : PocketRecord :=
  match r.phase with
  | .held => if r.counted then r.strand .trackSuspect else r
  | .decided => if r.counted then r.strand .trackSuspect else r
  | .open => { r with phase := .void, reason := some .trackSuspect }
  | .firing => r | .stranded => r | .retained => r | .empty => r | .gone => r | .lost => r | .void => r

/-- R13: fault HOME_MISMATCH, load_pocket 0, the releases and the phase changes. -/
def homeMismatch (s : State) : State :=
  let s := raiseFault .homeMismatch s.faultPocket none s
  let s := { s with tracker := { s.tracker with loadPocket := some 0 } }
  let s := s.tracker.ring.foldl (fun s r => if r.counted then releaseIfDecided r s else s) s
  setRing (s.tracker.ring.map PocketRecord.suspect) s

/-- R13: HOME is compared with the new load_pocket. -/
def compareHome (home : Bool) (s : State) : State :=
  if home = decide (s.tracker.loadPocket = some 0) then s else homeMismatch s

/-- R14: the contact deadline. -/
def contactDeadline (s : State) : State :=
  match s.station .contact with
  | some st =>
    modRing (st.offset + st.allowance + 1)
      (fun r => if r.phase = .open then { r with phase := .void, reason := some .late } else r) s
  | none => s

/-- Whether a record's result list holds a result for a station (R33). -/
def PocketRecord.hasResult (r : PocketRecord) (st : Station) : Bool := r.results.any fun x => x.station == st

/-- R15, R48: the value or recheck deadline. -/
def verdictDeadline (st : Station) (s : State) : State :=
  match s.station st with
  | some e =>
    match s.tracker.ring[e.offset + e.allowance + 1]? with
    | some r =>
      if r.phase = .held ∧ r.hasResult st = false then finalVerdict (e.offset + e.allowance + 1) .retest .late s else s
    | none => s
  | none => s

/-- R14, R15, R57: the deadlines; of two verdicts the one at the higher offset is routed first. -/
def deadlines (s : State) : State := verdictDeadline .value (verdictDeadline .recheck (contactDeadline s))

/-- R19: the check-delay timer starts for the record now at Z. -/
def startCheckTimer (s : State) : State :=
  { s with tracker := { s.tracker with checkTimer := some (s.now + s.dial.checkDelay) } }

/-- R10: the parts of a forward index, in order. -/
def forwardParts (home : Bool) (s : State) : State :=
  startCheckTimer (arrivals (passes (deadlines (compareHome home (moveUp (cancelCheck s))))))

/-- R151: the run-out bound. -/
def State.runOutBound (s : State) : Int := 2 * ((s.z : Int) + 1)

/-- R151: whether the index that `s` is about to count takes RUN_OUT to its bound. -/
def State.reachesBound (s : State) : Bool :=
  match s.sup.clearance with
  | some c => c.stage == .runOut && decide (c.count + 1 = s.runOutBound)
  | none => false

/-- R149 to R151: the count, the completion tests and the bound at the end of a forward index. -/
def countForward (s : State) : State :=
  let tested := advanceClearance (countIndex 1 s)
  if s.reachesBound ∧ tested.stage = some .runOut then raiseFault .runOutExceeded tested.faultPocket none tested
  else tested

/-- R10 to R19, R149 to R151. -/
def onForwardIndex (home : Bool) (s : State) : State := finishLine (countForward (forwardParts home s))

/-! ### The reverse index -/

/-- R20: the record leaving offset 0 is discarded; a DECIDED one is released, and a counted one booked (log 19). -/
def discardBottom (r : PocketRecord) (s : State) : State :=
  let s := releaseIfDecided r s
  if r.standing then bookRecord r (s.pocketAt 0) s else s

/-- R9: the stack top, or on underflow a new VOID record without seq. -/
def popToZ (s : State) : State :=
  match s.tracker.stack with
  | r :: rest => { s with tracker := { s.tracker with ring := s.tracker.ring ++ [r], stack := rest } }
  | [] =>
    { s with tracker := { s.tracker with
        ring := s.tracker.ring ++ [PocketRecord.fresh none s.tracker.nextIdent .void],
        nextIdent := s.tracker.nextIdent + 1 } }

/-- R9, R180: the underflow's notice, its pocket derived once the index is complete. -/
def raiseGap (underflow : Bool) (s : State) : State :=
  if underflow then raiseNotice .trackGap (s.pocketAt s.z) s else s

/-- R20, R21: the parts of a reverse index, in order. -/
def reverseParts (s : State) : State :=
  let s := cancelCheck s
  let s := match s.tracker.ring with
    | r :: rest => setRing rest (discardBottom r s)
    | [] => s
  let underflow := s.tracker.stack.isEmpty
  raiseGap underflow (endSlots (moveLoadPocket (-1) (popToZ s)))

/-- R20, R21, R150. -/
def onReverseIndex (s : State) : State := finishEvent (countIndex (-1) (reverseParts s))

/-! ### The JAM line -/

/-- R140: a rising edge raises notice JAM, and in a lot state fault JAM. -/
def onJamRise (s : State) : State :=
  let s := raiseNotice .jam s.sup.engine.code s
  finishLine (raiseFault .jam s.faultPocket none s)

/-! ### The commands -/

/-- FORWARD_INDEX (R10): ignored in UNCONFIGURED and READY. -/
def execForwardIndex (time : Nat) (home : Bool) (s : State) : Host.Outcome State Fault Refusal :=
  .next (whenRunning (fun s => inLot (onForwardIndex home) (advanceTo time s)) s)

/-- REVERSE_INDEX (R20): ignored in UNCONFIGURED and READY. -/
def execReverseIndex (time : Nat) (s : State) : Host.Outcome State Fault Refusal :=
  .next (whenRunning (fun s => inLot onReverseIndex (advanceTo time s)) s)

/-- CHECK_SAMPLE (R96): taken in SORTING, CLEARING and HALTED. -/
def execCheckSample (check : Bool) (s : State) : Host.Outcome State Fault Refusal :=
  .next (whenRunning (inLot (onCheckSample check)) s)

/-- JAM_RISE (R140); while the engine is held in reset only the level changes (R142, log 28). -/
def execJamRise (time : Nat) (s : State) : Host.Outcome State Fault Refusal :=
  .next (whenRunning (fun s => onJamRise (advanceTo time s)) { s with jam := true })

/-- JAM_FALL (R140): raises nothing and changes no state but the level. -/
def execJamFall (time : Nat) (s : State) : Host.Outcome State Fault Refusal :=
  .next (whenRunning (advanceTo time) { s with jam := false })

end Sys2Proof.Machine
end

