-- ==== Sys2Proof/Machine/Classifier.lean ====
section
/-! DEFINITION. The Classifier and the MEAS frame: its tests and discards (R23, R24, R31 to R33), contact, value and
recheck results (R34 to R44). -/

namespace Sys2Proof.Machine

/-! ### Discards and placement -/

/-- R32: the last discard reason is set and MEAS_DISCARDED is raised. -/
def discard (reason : Discard) (s : State) : State :=
  raiseNotice .measDiscarded reason.code { s with sup := { s.sup with lastDiscard := some reason } }

/-- R23: a pocket's offset, (load_pocket − p) mod P. -/
def State.offsetOf (s : State) (pocket : Nat) : Nat :=
  pocketNumber s.dial.pockets (s.tracker.loadPocket.getD 0) pocket

/-- Where the Tracker places a MEAS frame, or why it discards it. -/
inductive Placement where
  | placed (k : Nat)
  | discarded (reason : Discard)
  deriving DecidableEq, Repr

/-- R23, R24: a pocket is placed by its station's window and Z. -/
def State.place (s : State) (e : StationEntry) (pocket : Nat) : Placement :=
  if s.dial.pockets ≤ pocket then .discarded .outOfZone
  else if s.offsetOf pocket < e.offset then .discarded .early
  else if s.offsetOf pocket ≤ e.offset + e.allowance then .placed (s.offsetOf pocket)
  else if s.offsetOf pocket ≤ s.z then .discarded .late
  else .discarded .outOfZone

/-- R33: why a record refuses a result, if it does. -/
def PocketRecord.refusal (r : PocketRecord) (st : Station) : Option Discard :=
  if r.hasResult st then some .duplicate
  else
    match r.phase with
    | .open => if st = .contact then none else some .notLoaded
    | .void => if st = .contact then none else some .notLoaded
    | .empty => if st = .contact then some .duplicate else some .notLoaded
    | .held =>
      match st with
      | .contact => some .duplicate
      | .value => none
      | .recheck => if r.hasResult .value then none else some .early
    | .decided => some .final | .firing => some .final | .gone => some .final | .stranded => some .final
    | .retained => some .final | .lost => some .final

/-! ### Contact results -/

/-- An accepted result joins the record's result list. -/
def addResult (k : Nat) (m : Meas) (s : State) : State :=
  modRing k (fun r => { r with results := r.results ++ [{ station := m.station, status := m.status, value := m.value }] }) s

/-- R36: the record is counted and present rises. -/
def countPart (k : Nat) (s : State) : State :=
  modRing k (fun r => { r with counted := true }) { s with sup := { s.sup with present := countUp s.sup.present } }

/-- R34: a contact result for an OPEN record. -/
def contactOpen (k : Nat) (status : Status) (s : State) : State :=
  match status with
  | .part => modRing k (fun r => { r with phase := .held }) (countPart k s)
  | .noPart => modRing k (fun r => { r with phase := .empty }) s
  | .contactFail => finalVerdict k .contactReject .contactFail (countPart k s)
  | .ok => s | .overHigh => s | .overLow => s | .meterError => s

/-- R35: a contact result for a VOID record. -/
def contactVoid (k : Nat) (status : Status) (s : State) : State :=
  match status with
  | .part => finalVerdict k .retest .stray (countPart k s)
  | .contactFail => finalVerdict k .retest .stray (countPart k s)
  | .noPart => s
  | .ok => s | .overHigh => s | .overLow => s | .meterError => s

/-! ### Value results -/

/-- A value mantissa × 10^exponent in units of 0.001 Ω (R29). -/
def milliohms (value : Nat × Int) : Nat := value.1 * 10 ^ (value.2 + 3).toNat

/-- The nominal in the same units (R114). -/
def LotEntry.nominal (e : LotEntry) : Nat := milliohms (e.nominalMantissa, e.nominalExponent)

/-- R37: trunc(10^6 × (V − N) / N). -/
def deviationOf (value nominal : Nat) : Int := Int.tdiv (1000000 * ((value : Int) - (nominal : Int))) nominal

/-- R38: ±999,999. -/
def clampPpm (d : Int) : Int := max (-(Config.ppmMax : Int)) (min (Config.ppmMax : Int) d)

/-- The class indices in order. -/
def allClasses : List (Fin 32) :=
  [0, 1, 2, 3, 4, 5, 6, 7, 8, 9, 10, 11, 12, 13, 14, 15, 16, 17, 18, 19, 20, 21, 22, 23, 24, 25, 26, 27, 28, 29, 30, 31]

/-- Whether an entry takes part in the search and contains a deviation (R39). -/
def ClassEntry.takes (e : ClassEntry) (d : Int) : Bool := e.enabled && decide (e.lo ≤ d) && decide (d ≤ e.hi)

/-- R39: the lowest enabled class that contains the deviation. -/
def TableSet.classOf (t : TableSet) (d : Int) : Option (Fin 32) :=
  allClasses.find? fun c => t.classes[c].any fun e => e.takes d

def State.classOf (s : State) (d : Int) : Option (Fin 32) := s.tables.active.bind fun t => t.classOf d

/-- R39, R40: the class search and what it decides. -/
def classify (k : Nat) (d : Int) (s : State) : State :=
  match s.classOf d with
  | none => finalVerdict k .outOfTolerance .outOfTolerance s
  | some c =>
    if (s.station .recheck).isSome then modRing k (fun r => { r with provisional := some c }) s
    else finalVerdict k (.cls c) .inClass s

/-- R37 to R40: a VALUE result with status OK. -/
def valueOk (k : Nat) (value : Nat × Int) (s : State) : State :=
  let d := deviationOf (milliohms value) ((s.lotEntry.map LotEntry.nominal).getD 1)
  if Config.ppmMax < d.natAbs then
    finalVerdict k .outOfTolerance .outOfTolerance
      (modRing k (fun r => { r with deviation := some (clampPpm d), saturated := true }) s)
  else classify k d (modRing k (fun r => { r with deviation := some d }) s)

/-- R37 to R41: a VALUE result for a HELD record. -/
def valueResult (k : Nat) (m : Meas) (s : State) : State :=
  match m.status with
  | .ok => valueOk k (m.value.getD (0, 0)) s
  | .overHigh => finalVerdict k .outOfTolerance .outOfTolerance s
  | .overLow => finalVerdict k .outOfTolerance .outOfTolerance s
  | .meterError => finalVerdict k .retest .meterError s
  | .part => s | .noPart => s | .contactFail => s

/-! ### Recheck results -/

/-- The first value V1 of a record, from its VALUE result (R42); 0 where it holds none (log 22). -/
def PocketRecord.firstValue (r : PocketRecord) : Nat :=
  (((r.results.find? fun x => x.station == .value).bind Result.value).map milliohms).getD 0

/-- R42: trunc(10^6 × |V2 − V1| / V1), at most 999,999, and 999,999 for V1 0. -/
def driftOf (v1 v2 : Nat) : Nat :=
  if v1 = 0 then Config.ppmMax
  else min Config.ppmMax (1000000 * ((v2 : Int) - (v1 : Int)).natAbs / v1)

/-- R43: what the drift decides. -/
def judgeDrift (k : Nat) (r : PocketRecord) (drift : Nat) (s : State) : State :=
  if (s.lotEntry.map LotEntry.driftLimit).getD 0 < drift then finalVerdict k .driftReject .drift s
  else
    match r.provisional with
    | some c => finalVerdict k (.cls c) .inClass s
    | none => s

/-- R42 to R44: a RECHECK result for a HELD record `r`. -/
def recheckResult (k : Nat) (r : PocketRecord) (m : Meas) (s : State) : State :=
  match m.status with
  | .ok =>
    let drift := driftOf r.firstValue (milliohms (m.value.getD (0, 0)))
    judgeDrift k r drift (modRing k (fun r => { r with drift := some drift }) s)
  | .overHigh => finalVerdict k .retest .meterError s
  | .overLow => finalVerdict k .retest .meterError s
  | .meterError => finalVerdict k .retest .meterError s
  | .part => s | .noPart => s | .contactFail => s

/-! ### A MEAS frame -/

/-- R34, R35, R37, R42: an admitted result is applied by its station and the record's phase. -/
def applyResult (k : Nat) (r : PocketRecord) (m : Meas) (s : State) : State :=
  match m.station with
  | .contact => if r.phase = .open then contactOpen k m.status (addResult k m s) else contactVoid k m.status (addResult k m s)
  | .value => valueResult k m (addResult k m s)
  | .recheck => recheckResult k r m (addResult k m s)

/-- R24, R33: the result is placed and put to its record. -/
def placeResult (m : Meas) (e : StationEntry) (s : State) : State :=
  match s.place e m.pocket with
  | .discarded reason => discard reason s
  | .placed k =>
    match s.tracker.ring[k]? with
    | some r =>
      match r.refusal m.station with
      | some reason => discard reason s
      | none => applyResult k r m s
    | none => s

/-- R31: the tests of a MEAS frame, in their order. -/
def takeMeas (f : InFrame) (s : State) : State :=
  if s.lotOpen = false then discard .noLot s
  else
    match Meas.ofPayload f.payload with
    | none => discard .badStation s
    | some m =>
      match s.station m.station with
      | none => discard .badStation s
      | some e => if m.status.belongsTo m.station then placeResult m e s else discard .badStation s

/-- MEAS as the Dispatcher serves it; the stage tests end the event (R149, R153). -/
def serveMeas (f : InFrame) (s : State) : State := advanceClearance (takeMeas f s)

end Sys2Proof.Machine
end

