-- ==== Sys2Proof/Machine/Tables.lean ====
section
/-! DEFINITION. The Table Store: TABLE_WRITE, TABLE_READ, TABLE_DISCARD and TABLE_COMMIT with its validation and
activation (R116 to R124, R67). -/

namespace Sys2Proof.Machine

/-- R172: the REPLY to a request, echoing its TAG and KIND. -/
def reply (f : InFrame) (result : ResultCode) (rest : List Byte) (s : State) : State :=
  enqueue f.tag (.reply f.kind result rest) s

/-- R172: BAD_FIELD with the number of the field. -/
def badField (f : InFrame) (number : Nat) (s : State) : State := reply f .badField (bytesOf 1 number) s

/-- A change of the Table Store. -/
def setStaging (staged : TableSet) (check : Crc) (s : State) : State :=
  { s with tables := { s.tables with staged := staged, check := check } }

/-! ### Loading and reading -/

/-- R116, R117: an accepted write replaces the entry, folds its payload and is answered with the check. -/
def storeEntry (f : InFrame) (kind : TableKind) (s : State) : State :=
  let check := crcFold s.tables.check f.payload
  reply f .done (slice f.payload 0 2 ++ bytesOf 2 check.toNat)
    (setStaging (s.tables.staged.write kind (field f.payload 1 1) (f.payload.drop 2)) check s)

/-- R116, R177: TABLE_WRITE. -/
def serveTableWrite (f : InFrame) (s : State) : State :=
  match TableKind.ofByte (f.payload.headD 0) with
  | none => if f.payload.length < 2 then reply f .badLength [] s else badField f 1 s
  | some kind =>
    if f.payload.length ≠ kind.writeLen then reply f .badLength [] s
    else if kind.entries ≤ field f.payload 1 1 then reply f .badIndex [] s
    else
      match firstBad 3 (kind.rangeTests (f.payload.drop 2)) with
      | some number => badField f number s
      | none => storeEntry f kind s

/-- R124, R177: the DONE payload of a TABLE_READ, from the set the selector names. -/
def readPayload (f : InFrame) (set : TableSet) (kind : TableKind) (check : List Byte) : List Byte :=
  match set.read kind (field f.payload 2 1) with
  | some fields => slice f.payload 0 3 ++ [1] ++ fields ++ check
  | none => slice f.payload 0 3 ++ [0] ++ check

/-- R124: TABLE_READ. -/
def serveTableRead (f : InFrame) (s : State) : State :=
  if f.payload.length ≠ 3 then reply f .badLength [] s
  else if 1 < field f.payload 0 1 then badField f 1 s
  else
    match TableKind.ofByte (f.payload.getD 1 0) with
    | none => badField f 2 s
    | some kind =>
      if kind.entries ≤ field f.payload 2 1 then reply f .badIndex [] s
      else if field f.payload 0 1 = 1 then
        reply f .done (readPayload f s.tables.staged kind (bytesOf 2 s.tables.check.toNat)) s
      else
        match s.tables.active with
        | some set => reply f .done (readPayload f set kind []) s
        | none => reply f .refusedState [] s

/-- R118: the staged set returns to the active set and the check restarts. -/
def discardStaging (s : State) : State :=
  setStaging (s.tables.active.getD .absent) Config.crcStart s

/-- R118: TABLE_DISCARD. -/
def serveTableDiscard (f : InFrame) (s : State) : State :=
  if f.payload.length ≠ 0 then reply f .badLength [] s
  else reply f .done (bytesOf 2 Config.crcStart.toNat) (discardStaging s)

/-! ### Validation (R120)

A check answers none when the set passes it, else the entry index it reports, absent or present. -/

/-- The lowest-numbered enabled outlet that fails a test. -/
def TableSet.firstOutlet (t : TableSet) (fails : Fin 16 → OutletEntry → Bool) : Option (Option Nat) :=
  (allOutlets.find? fun n => (t.outlet n).any (fails n)).map fun n => some n.val

/-- An enabled class of a set. -/
def TableSet.cls (t : TableSet) (c : Fin 32) : Option ClassEntry := t.classes[c].filter ClassEntry.enabled

/-- o_s of an enabled station. -/
def TableSet.windowStart (t : TableSet) (st : Station) : Nat := ((t.station st).map StationEntry.offset).getD 0

/-- o_s + a_s of an enabled station. -/
def TableSet.windowEnd (t : TableSet) (st : Station) : Nat :=
  ((t.station st).map fun e => e.offset + e.allowance).getD 0

/-- Z of a set. -/
def TableSet.z (t : TableSet) : Nat := (t.dial.map DialEntry.checkOffset).getD 0

/-- The window end of the last enabled station (R120). -/
def TableSet.lastWindowEnd (t : TableSet) : Nat :=
  if (t.station .recheck).isSome then t.windowEnd .recheck else t.windowEnd .value

/-- Check 1. -/
def TableSet.checkDial (t : TableSet) : Option (Option Nat) :=
  if t.dial.any fun d => decide (d.checkOffset + 1 ≤ d.pockets) then none else some none

/-- Check 2. -/
def TableSet.checkStations (t : TableSet) : Option (Option Nat) :=
  if (t.station .contact).isNone then some (some 0)
  else if (t.station .value).isNone then some (some 1)
  else none

/-- Check 3. -/
def TableSet.checkContact (t : TableSet) : Option (Option Nat) :=
  if 1 ≤ t.windowStart .contact then none else some (some 0)

/-- Check 4. -/
def TableSet.checkWindows (t : TableSet) : Option (Option Nat) :=
  if t.windowStart .value ≤ t.windowEnd .contact then some (some 1)
  else if (t.station .recheck).isSome ∧ t.windowStart .recheck ≤ t.windowEnd .value then some (some 2)
  else none

/-- Whether a lower-numbered enabled outlet stands at the same offset. -/
def TableSet.sharesOffset (t : TableSet) (n : Fin 16) (e : OutletEntry) : Bool :=
  allOutlets.any fun m => decide (m.val < n.val) && (t.outlet m).any fun x => x.offset == e.offset

/-- Check 5. -/
def TableSet.checkOffsets (t : TableSet) : Option (Option Nat) :=
  t.firstOutlet fun n e => !(decide (t.lastWindowEnd < e.offset) && decide (e.offset < t.z)) || t.sharesOffset n e

/-- What check 6 asks of the one sweep outlet's entry. -/
def TableSet.sweepFits (t : TableSet) (e : OutletEntry) : Bool :=
  allOutlets.all (fun m => (t.outlet m).all fun x => decide (x.offset ≤ e.offset)) && e.mode == .pulse && e.missLimit == 0

/-- Check 6. -/
def TableSet.checkSweep (t : TableSet) : Option (Option Nat) :=
  match allOutlets.filter fun n => (t.outlet n).any OutletEntry.sweep with
  | [] => some none
  | [n] => if (t.outlet n).any t.sweepFits then none else some (some n.val)
  | _ :: second :: _ => some (some second.val)

/-- Check 7. -/
def TableSet.checkOverflow (t : TableSet) : Option (Option Nat) :=
  t.firstOutlet fun n e =>
    match e.overflow with
    | some m => e.sweep || m == n || (t.outlet m).isNone
    | none => false

/-- Check 8. -/
def TableSet.checkClasses (t : TableSet) : Option (Option Nat) :=
  (allClasses.find? fun c => (t.cls c).any fun e => decide (e.hi < e.lo) || (t.outlet e.outlet).isNone).map
    fun c => some c.val

/-- Check 9. -/
def TableSet.checkLot (t : TableSet) : Option (Option Nat) :=
  match t.lot with
  | none => some none
  | some e =>
    if (t.outlet e.contactReject).isNone then some (some 0)
    else if (t.outlet e.outOfTolerance).isNone then some (some 1)
    else if (t.outlet e.driftReject).isNone then some (some 2)
    else if (t.outlet e.retest).isNone then some (some 3)
    else none

/-- Check 10. -/
def TableSet.checkFlights (t : TableSet) : Option (Option Nat) :=
  t.firstOutlet fun _ e => decide (e.flightMax < e.flightMin)

/-- Check 11. -/
def TableSet.checkLink (t : TableSet) : Option (Option Nat) :=
  if t.link.all fun e => decide (e.holdOff < e.holdOn) then none else some none

/-- The first failing check of a list, the first having code `code`. -/
def firstFailure : Nat → List (Option (Option Nat)) → Option (Nat × Option Nat)
  | _, [] => none
  | code, some index :: _ => some (code, index)
  | code, none :: rest => firstFailure (code + 1) rest

/-- R120: the code and entry index of the first check that fails. -/
def TableSet.invalid (t : TableSet) : Option (Nat × Option Nat) :=
  firstFailure 1 [t.checkDial, t.checkStations, t.checkContact, t.checkWindows, t.checkOffsets, t.checkSweep,
    t.checkOverflow, t.checkClasses, t.checkLot, t.checkFlights, t.checkLink]

/-! ### Activation (R67, R122, R123) -/

/-- R115: an absent LINK record is activated with the defaults. -/
def TableSet.withLink (t : TableSet) : TableSet := { t with link := some (t.link.getD .default) }

/-- FULL or OPEN by a capacity (R53, R67). -/
def stateByCapacity (committed capacity : Nat) : OutletState := if capacity ≤ committed then .full else .open

/-- R67: an outlet record under the old and the new set's enabled entries. -/
def Outlet.recommit (o : Outlet) (old new : Option OutletEntry) : Outlet :=
  match old, new with
  | some _, some e =>
    { o with state := if o.state = .faulted ∧ e.sweep = false then .faulted else stateByCapacity o.committed e.capacity }
  | none, some _ => { o with state := .open, committed := 0, missRun := 0 }
  | some _, none => { o with state := .disabled, committed := 0, missRun := 0 }
  | none, none => { o with state := .disabled }

/-- R122: the engine enters READY from UNCONFIGURED. -/
def EngineState.afterCommit (e : EngineState) : EngineState :=
  match e with
  | .unconfigured => .ready
  | .ready => .ready | .sorting => .sorting | .clearing => .clearing | .halted => .halted

/-- R122, R123: the staged set becomes active. -/
def activate (s : State) : State :=
  let new := s.tables.staged.withLink
  let s := mapOutlets (fun n o => o.recommit (s.outletEntry n) (new.outlet n)) s
  judgeHold { s with tables := { active := some new, staged := new, check := Config.crcStart },
                     sup := { s.sup with engine := s.sup.engine.afterCommit } }

/-- R119, R120: the commit of a request that names `expected`, in UNCONFIGURED or READY. -/
def commit (f : InFrame) (expected : Nat) (s : State) : State :=
  if expected ≠ s.tables.check.toNat then
    reply f .checkMismatch (bytesOf 2 s.tables.check.toNat) (discardStaging s)
  else
    match s.tables.staged.invalid with
    | some (code, index) => reply f .tableInvalid (bytesOf 1 code ++ bytesOf 1 (index.getD 0xFF)) s
    | none => reply f .done (bytesOf 2 expected) (activate s)

/-- R119: TABLE_COMMIT. -/
def serveTableCommit (f : InFrame) (s : State) : State :=
  if f.payload.length ≠ 2 then reply f .badLength [] s
  else if s.lotOpen then reply f .refusedState [] s
  else commit f (field f.payload 0 2) s

end Sys2Proof.Machine
end

