-- ==== Sys2Proof/Machine/Requests.lean ====
section
/-! DEFINITION. Management requests of the Supervisor, the Outlet Unit, the Notice Unit and the Line Receiver, and the
queries (R63, R128 to R131, R138, R147, R152, R172 to R179). Each is what the Dispatcher's serving of one frame does. -/

namespace Sys2Proof.Machine

/-! ### Payload blocks -/

/-- Bytes to which the manual gives no value: the free value number `k` after those drawn so far (log 12). -/
def State.unstatedBytes (s : State) (k count : Nat) : List Byte :=
  bytesOf count (Config.unstatedField (s.unstated + k)).toNat

/-- The free values that one reply may have drawn are not drawn again. -/
def drawUnstated (s : State) : State := { s with unstated := s.unstated + 16 }

/-- A presence byte and a 4-byte number, whose bytes are `free` when it is absent. -/
def optional4 (v : Option Nat) (free : List Byte) : List Byte :=
  match v with
  | some q => 1 :: bytesOf 4 q
  | none => 0 :: free

/-- One entry of the fault record block, 7 bytes (R173). -/
def FaultEntry.bytes (e : FaultEntry) (free : List Byte) : List Byte :=
  bytesOf 1 e.code.code ++ bytesOf 1 e.loadPocket ++ optional4 e.seq free

/-- The entries of a fault record, the first fault first. -/
def FaultRecord.entries (f : FaultRecord) : List FaultEntry := f.first.toList ++ f.later

/-- The entries' bytes, the free values drawn from number `k` on. -/
def State.faultEntryBytes (s : State) : Nat → List FaultEntry → List Byte
  | _, [] => []
  | k, e :: rest => e.bytes (s.unstatedBytes k 4) ++ s.faultEntryBytes (k + 1) rest

/-- The fault record block (R173). -/
def State.faultBlock (s : State) : List Byte :=
  flagByte s.sup.faults.overflow :: bytesOf 1 s.sup.faults.entries.length
    ++ s.faultEntryBytes 4 s.sup.faults.entries

/-- A byte that is 0xFF when the field is absent (R173). -/
def orFF (v : Option Nat) : List Byte := bytesOf 1 (v.getD 0xFF)

/-! ### Queries -/

/-- The state byte of next seq and its 4 bytes (R5, R173). -/
def State.nextSeqBytes (s : State) : List Byte :=
  match s.tracker.nextSeq with
  | some q => if q ≤ Config.seqMax then 1 :: bytesOf 4 q else 2 :: s.unstatedBytes 1 4
  | none => 0 :: s.unstatedBytes 1 4

/-- STATUS_QUERY's DONE payload (R173). -/
def State.statusBytes (s : State) : List Byte :=
  bytesOf 1 s.sup.engine.code ++ orFF (s.sup.returnState.map RunState.code) ++ orFF (s.stage.map Stage.code)
    ++ orFF (s.sup.clearance.map fun c => c.kind.endKind.code)
    ++ (match s.sup.clearance with
        | some c => signedBytesOf 3 c.count
        | none => s.unstatedBytes 0 3)
    ++ orFF s.tracker.loadPocket ++ s.nextSeqBytes ++ optional4 s.sup.lotId (s.unstatedBytes 2 4)
    ++ bytesOf 4 s.sup.present ++ bytesOf 4 s.sup.unaccounted ++ bytesOf 4 s.sup.recovered ++ bytesOf 4 s.sup.strays
    ++ bytesOf 1 s.sup.resetCause.code ++ orFF (s.sup.lastDiscard.map Discard.code)
    ++ (match s.lrx.nodeAddress with
        | some a => bytesOf 1 a.val
        | none => s.unstatedBytes 3 1)
    ++ bytesOf 1 s.lrx.inbound.length ++ bytesOf 1 s.ltx.outbound.length ++ bytesOf 1 s.lrx.urgent.length
    ++ [flagByte s.lrx.hold] ++ bytesOf 2 s.pendingWord ++ bytesOf 2 s.maskWord ++ s.faultBlock

/-- R173: STATUS_QUERY. -/
def serveStatusQuery (f : InFrame) (s : State) : State :=
  if f.payload.length ≠ 0 then reply f .badLength [] s
  else drawUnstated (reply f .done s.statusBytes s)

/-- One result of a record (R174). -/
def Result.bytes (r : Result) : List Byte :=
  bytesOf 1 r.station.code ++ bytesOf 1 r.status.code ++ optBytes r.value fun v => bytesOf 3 v.1 ++ signedBytesOf 1 v.2

/-- A flag as a bit of a byte. -/
def flagBit (b : Bool) (bit : Nat) : Nat := if b then 2 ^ bit else 0

/-- A record as POCKET_QUERY shows it (R174). -/
def PocketRecord.bytes (r : PocketRecord) : List Byte :=
  bytesOf 1 (presenceBit r.seq 0 + presenceBit r.provisional 1 + presenceBit r.finalClass 2 + presenceBit r.reason 3
      + presenceBit r.target 4 + presenceBit r.deviation 5 + presenceBit r.drift 6)
    ++ bytesOf 1 r.phase.code ++ bytesOf 1 (flagBit r.counted 0 + flagBit r.checked 1 + flagBit r.saturated 2)
    ++ bytesOf 1 r.results.length ++ r.results.flatMap Result.bytes
    ++ optBytes r.seq (bytesOf 4) ++ optBytes r.provisional (fun c => bytesOf 1 c.val)
    ++ optBytes r.finalClass (fun v => bytesOf 1 v.code) ++ optBytes r.reason (fun x => bytesOf 1 x.code)
    ++ optBytes r.target (fun t => bytesOf 1 t.outlet.val ++ bytesOf 1 t.hops)
    ++ optBytes r.deviation (signedBytesOf 3) ++ optBytes r.drift (bytesOf 3)

/-- The place that a POCKET_QUERY names: a ring offset, or a stack depth counted from 1. -/
def queryPlace (selector position : Nat) : Option Place :=
  if selector = 0 then some (.ring position) else if position = 0 then none else some (.stack (position - 1))

/-- The record at a place. -/
def State.recordAt (s : State) (p : Place) : Option PocketRecord :=
  match p with
  | .ring k => s.tracker.ring[k]?
  | .stack d => s.tracker.stack[d]?

/-- R174: POCKET_QUERY. -/
def servePocketQuery (f : InFrame) (s : State) : State :=
  if f.payload.length ≠ 2 then reply f .badLength [] s
  else if 1 < field f.payload 0 1 then badField f 1 s
  else if s.lotOpen = false then reply f .refusedState [] s
  else
    match queryPlace (field f.payload 0 1) (field f.payload 1 1) with
    | none => reply f .badIndex [] s
    | some p =>
      match s.recordAt p with
      | some r => reply f .done (f.payload ++ bytesOf 1 (s.pocketOf p) ++ r.bytes) s
      | none => reply f .badIndex [] s

/-- A confirmation entry as OUTLET_QUERY shows it (R175). -/
def Entry.bytes (e : Entry) (now : Nat) : List Byte :=
  bytesOf 1 (presenceBit e.name.seq 0 + flagBit e.counted 1) ++ optBytes e.name.seq (bytesOf 4)
    ++ bytesOf 2 (now - e.fireTime)

/-- The seq of the record a slot names (R175). -/
def Slot.seq (slot : Slot) : Option Nat := slot.name.bind RecordName.seq

/-- OUTLET_QUERY's DONE payload (R175); the capacity is the active entry's, enabled or not. -/
def State.outletBytes (s : State) (n : Fin 16) : List Byte :=
  let o := s.outlets[n]
  bytesOf 1 n.val ++ bytesOf 1 o.state.code ++ bytesOf 2 o.committed ++ bytesOf 1 o.reserved ++ bytesOf 4 o.lotTotal
    ++ bytesOf 1 o.missRun
    ++ bytesOf 2 (((s.tables.active.bind fun t => t.outlets[n]).map OutletEntry.capacity).getD 0)
    ++ bytesOf 1 o.slot.code ++ optional4 o.slot.seq (s.unstatedBytes 0 4) ++ bytesOf 1 o.drive.code
    ++ bytesOf 1 o.queue.length ++ o.queue.flatMap fun e => e.bytes s.now

/-- R175: OUTLET_QUERY. -/
def serveOutletQuery (f : InFrame) (s : State) : State :=
  if f.payload.length ≠ 1 then reply f .badLength [] s
  else if 15 < field f.payload 0 1 then reply f .badIndex [] s
  else drawUnstated (reply f .done (s.outletBytes (Fin.ofNat 16 (field f.payload 0 1))) s)

/-! ### Opening a lot (R128) -/

/-- R3, R28: the ring of VOID records that LOT_START fills. -/
def voidRing (ident count : Nat) : List PocketRecord :=
  (List.range count).map fun k => PocketRecord.fresh none (ident + k) .void

/-- R28: the Tracker prepared for a lot. -/
def Tracker.lotStart (t : Tracker) (z loadPocket : Nat) : Tracker :=
  { ring := voidRing t.nextIdent (z + 1), stack := [], loadPocket := some loadPocket, nextSeq := some 1,
    checkTimer := none, nextIdent := t.nextIdent + (z + 1) }

/-- R128, R66: the lot opens. -/
def openLot (lotId loadPocket : Nat) (s : State) : State :=
  let s := mapOutlets (fun _ o => { o with lotTotal := 0 }) s
  { s with
    tracker := s.tracker.lotStart s.z loadPocket
    sup := { s.sup with engine := .sorting, returnState := none, clearance := none, faults := .empty,
                        lotId := some lotId, present := 0, unaccounted := 0, recovered := 0, strays := 0 } }

/-- R128: LOT_START. -/
def serveLotStart (f : InFrame) (s : State) : State :=
  if f.payload.length ≠ 5 then reply f .badLength [] s
  else if s.sup.engine ≠ .ready then reply f .refusedState [] s
  else if s.dial.pockets ≤ field f.payload 4 1 then badField f 2 s
  else if s.jam then drawUnstated (reply f .stillActive s.faultBlock s)
  else reply f .done f.payload (openLot (field f.payload 0 4) (field f.payload 4 1) s)

/-! ### Ending a lot (R129, R147, R152) -/

/-- R129: when LOT_END is taken. -/
def State.lotEndTaken (s : State) : Bool :=
  match s.sup.engine with
  | .sorting => true
  | .halted => s.sup.returnState == some .sorting
  | .unconfigured => false | .ready => false | .clearing => false

/-- R129, R147: the state or the return state becomes CLEARING, and the clearance record is made. -/
def beginClearance (stage : Stage) (kind : RunKind) (s : State) : State :=
  { s with sup := { s.sup with
      engine := if s.sup.engine = .halted then .halted else .clearing
      returnState := if s.sup.engine = .halted then some .clearing else none
      clearance := some { stage := stage, kind := kind, count := 0 } } }

/-- R152: how an abandoned run-out settles one ring record. -/
def abandonRecord (k : Nat) (s : State) : State :=
  match s.tracker.ring[k]? with
  | none => s
  | some r =>
    if r.standing then modRing k (.settle .lost) (bookRecord r (s.pocketAt k) (releaseIfDecided r s))
    else
      match r.phase with
      | .open => modRing k (.settle .void) s
      | .stranded => modRing k (.settle .void) s
      | .retained => modRing k (.settle .lost) s
      | .void => s | .empty => s | .held => s | .decided => s | .firing => s | .gone => s | .lost => s

/-- R152: slots end and the ring is settled from offset 0 to Z. -/
def abandonRunOut (s : State) : State :=
  (List.range s.tracker.ring.length).foldl (fun s k => abandonRecord k s) (endSlots s)

/-- R129, R147, R152: LOT_END. -/
def serveLotEnd (f : InFrame) (s : State) : State :=
  if f.payload.length ≠ 0 then reply f .badLength [] s
  else if s.lotEndTaken = false then reply f .refusedState [] s
  else if s.lotEntry.any LotEntry.abandon then
    advanceClearance (reply f .done (bytesOf 1 Stage.settle.code) (abandonRunOut (beginClearance .settle .abandoned s)))
  else advanceClearance (reply f .done (bytesOf 1 Stage.runOut.code) (beginClearance .runOut .ran s))

/-! ### Aborting a lot (R130, R131) -/

/-- R130 step 2: a counted record that stands is booked and becomes LOST. -/
def abortRecord (k : Nat) (s : State) : State :=
  match s.tracker.ring[k]? with
  | some r => if r.standing then modRing k (.settle .lost) (bookRecord r (s.pocketAt k) s) else s
  | none => s

def abortRing (s : State) : State :=
  (List.range s.tracker.ring.length).foldl (fun s k => abortRecord k s) s

/-- R130 step 3: a counted entry is booked, and its record becomes LOST when it is found. -/
def abortEntry (n : Fin 16) (s : State) (e : Entry) : State :=
  if e.counted then
    match s.firingPlace e.name with
    | some p => modPlace p (.settle .lost) (book (s.pocketOf p) (e.report n .unaccounted (s.pocketOf p) none) s)
    | none => book e.pocket (e.report n .unaccounted e.pocket none) s
  else s

def abortQueues (s : State) : State :=
  allOutlets.foldl (fun s n => s.outlets[n].queue.foldl (abortEntry n) s) s

/-- R130: every booking that LOT_ABORT makes, and step 4. -/
def abortBookings (s : State) : State :=
  mapOutlets (fun _ o => { o with queue := [], reserved := 0 }) (abortQueues (abortRing (stopOutlets s)))

/-- The number of bookings that R130 makes (R176). -/
def State.abortCount (s : State) : Nat :=
  (s.tracker.ring.filter PocketRecord.standing).length
    + (allOutlets.map fun n => (s.outlets[n].queue.filter Entry.counted).length).sum

/-- R131: the lot closes, the fault record is emptied and the engine enters READY. -/
def abortClose (s : State) : State :=
  let s := closeTracker s
  { s with sup := { s.sup with engine := .ready, returnState := none, clearance := none, faults := .empty } }

/-- R130, R131: LOT_ABORT. -/
def serveLotAbort (f : InFrame) (s : State) : State :=
  if f.payload.length ≠ 0 then reply f .badLength [] s
  else if s.lotOpen = false then reply f .refusedState [] s
  else
    let closed := reply f .done (bytesOf 4 s.abortCount) (abortClose (abortBookings s))
    enqueue 0 (.lotSummary (closed.lotSummary .aborted)) closed

/-! ### Faults and outlets -/

/-- R138: the fault record is emptied and the engine enters its return state. -/
def leaveHalted (s : State) : State :=
  { s with sup := { s.sup with
      engine := match s.sup.returnState with
        | some .clearing => .clearing
        | some .sorting => .sorting
        | none => .sorting
      returnState := none
      faults := .empty } }

/-- R138: CLEAR_FAULT. -/
def serveClearFault (f : InFrame) (s : State) : State :=
  if f.payload.length ≠ 0 then reply f .badLength [] s
  else if s.sup.engine ≠ .halted then reply f .refusedState [] s
  else if s.jam then drawUnstated (reply f .stillActive s.faultBlock s)
  else
    let resumed := leaveHalted s
    summaryStep (drawUnstated (reply f .done (s.faultBlock ++ bytesOf 1 resumed.sup.engine.code) resumed))

/-- R63: the bin of an enabled outlet has been emptied. -/
def emptyBin (n : Fin 16) (s : State) : State :=
  modOutlet n (fun o => { o with committed := 0, missRun := 0, state := .open }) s

/-- R63: OUTLET_RESET. -/
def serveOutletReset (f : InFrame) (s : State) : State :=
  if f.payload.length ≠ 1 then reply f .badLength [] s
  else if 15 < field f.payload 0 1 then reply f .badIndex [] s
  else
    let n := Fin.ofNat 16 (field f.payload 0 1)
    if s.outlets[n].state = .disabled then reply f .refusedState [] s
    else reply f .done (f.payload ++ bytesOf 2 s.outlets[n].committed) (emptyBin n s)

/-! ### Notices and the address -/

/-- R178: a set with any of bits 11 to 15. -/
def badSet (set : Nat) : Bool := decide (2 ^ 11 ≤ set)

/-- R178: NOTICE_ACK. -/
def serveNoticeAck (f : InFrame) (s : State) : State :=
  if f.payload.length ≠ 2 then reply f .badLength [] s
  else if badSet (field f.payload 0 2) then badField f 1 s
  else reply f .done (bytesOf 2 s.pendingWord) (ackNotices (field f.payload 0 2) s)

/-- R178: NOTICE_MASK. -/
def serveNoticeMask (f : InFrame) (s : State) : State :=
  if f.payload.length ≠ 2 then reply f .badLength [] s
  else if badSet (field f.payload 0 2) then badField f 1 s
  else reply f .done (bytesOf 2 s.maskWord) (maskNotices (field f.payload 0 2) s)

/-- R179: NODE_ASSIGN. -/
def serveNodeAssign (f : InFrame) (s : State) : State :=
  if f.payload.length ≠ 1 then reply f .badLength [] s
  else
    match s.lrx.nodeAddress with
    | some _ => reply f .refusedState [] s
    | none =>
      if 3 < field f.payload 0 1 then badField f 1 s
      else reply f .done f.payload
        { s with lrx := { s.lrx with nodeAddress := some (Fin.ofNat 4 (field f.payload 0 1)) } }

/-- R169: a KIND the engine does not take. -/
def serveUnknownKind (f : InFrame) (s : State) : State := reply f .unknownKind [] s

end Sys2Proof.Machine
end

