-- ==== Sys2Proof/Machine/Resets.lean ====
section
/-! DEFINITION. Resets (R142 to R145, R27, R53, R108, R184) and the urgent HALT (R141, R166). -/

namespace Sys2Proof.Machine

/-! ### Full resets -/

/-- The state that a full reset gives every block, held or released; `held` engines have no START notice yet (R142, R144,
R145, R184). The time base, the JAM level, the free values and the waiting commands are kept (log 29). -/
def fullReset (cause : ResetCause) (held : Bool) (rate : BitRate) (address : Option (Fin 4)) (s : State) : State :=
  { now := s.now
    held := held
    jam := s.jam
    rate := rate
    tracker := { Tracker.afterReset with nextIdent := s.tracker.nextIdent }
    outlets := Vector.replicate 16 .afterReset
    sup := .afterReset .unconfigured cause
    tables := .afterFullReset
    notices := Vector.replicate 11 .clear
    lrx := .afterReset address
    ltx := { outbound := [], txd := .idle (Config.ticksPerUs * s.now), reject := false, overrun := false, lost := false }
    unstated := s.unstated
    pending := s.pending }

/-- R145, R184: START is pending with the cause, and its frame is queued and begins as soon as TXD is idle. -/
def announceStart (cause : ResetCause) (s : State) : State :=
  startTransmission { s with
    notices := noticesAfterReset cause
    ltx := { s.ltx with outbound := s.ltx.outbound ++ [noticeFrame .start cause.code] } }

/-- R142: a condition begins a reset and the engine is held; one that comes while it is held changes nothing. -/
def beginHold (cause : ResetCause) (s : State) : State :=
  if s.held then s else fullReset cause true s.rate s.lrx.nodeAddress s

/-- R142, R159, R160: the hold ends, the straps are sampled, and the engine takes the state of a full reset. -/
def endHold (rate1 rate0 : Bool) (addr1 addr0 : StrapLevel) (s : State) : State :=
  if s.held then
    announceStart s.sup.resetCause
      (fullReset s.sup.resetCause false (.ofStraps rate1 rate0) (addressOfStraps addr1 addr0) s)
  else s

/-! ### CORE_RESET (R143) -/

/-- R53: an outlet record after a CORE_RESET, under its enabled entry of the active set. -/
def Outlet.afterCoreReset (o : Outlet) (e : Option OutletEntry) : Outlet :=
  match e with
  | some e => { Outlet.afterReset with state := stateByCapacity o.committed e.capacity, committed := o.committed }
  | none => .afterReset

/-- R144: READY when an active set exists. -/
def TableStore.engineAfterReset (t : TableStore) : EngineState :=
  match t.active with
  | some _ => .ready
  | none => .unconfigured

/-- R143, R171: every block takes its state after a CORE_RESET, a frame on TXD is cut, and START is announced. -/
def coreReset (s : State) : State :=
  announceStart .link
    { s with
      tracker := { Tracker.afterReset with nextIdent := s.tracker.nextIdent }
      outlets := Vector.ofFn fun n => s.outlets[n].afterCoreReset (s.outletEntry n)
      sup := .afterReset s.tables.engineAfterReset .link
      tables := { s.tables with staged := s.tables.active.getD .absent, check := Config.crcStart }
      lrx := .afterReset s.lrx.nodeAddress
      ltx := { outbound := [], txd := s.ltx.txd.cutAt s.rate s.now, reject := false, overrun := false, lost := false } }

/-! ### HALT (R141, R166) -/

/-- R166: the reply to a HALT is admitted, kept in the urgent reply list, or not kept. -/
def offerHaltReply (tag : Byte) (result : ResultCode) (s : State) : State :=
  if s.ltx.outbound.length < Config.outboundLimit ∧ s.lrx.urgent = [] then
    enqueue tag (.reply kindHalt result []) s
  else if s.lrx.urgent.length < Config.urgentLimit then
    { s with lrx := { s.lrx with
        urgent := s.lrx.urgent ++ [{ tag := tag, body := .reply kindHalt result [], flags := none }] } }
  else { s with ltx := { s.ltx with overrun := true } }

/-- R141: fault HALT_REQUEST in a lot state, else a refusal. -/
def takeHalt (tag : Byte) (s : State) : State :=
  if s.lotOpen then offerHaltReply tag .done (raiseFault .haltRequest s.faultPocket none s)
  else offerHaltReply tag .refusedState s

/-! ### The commands -/

/-- POWER_ON (R142). -/
def execPowerOn (s : State) : Host.Outcome State Fault Refusal := .next (beginHold .powerOn s)

/-- SUPPLY_LOW (R142). -/
def execSupplyLow (s : State) : Host.Outcome State Fault Refusal := .next (beginHold .supplyLow s)

/-- EXTERNAL (R142). -/
def execExternal (s : State) : Host.Outcome State Fault Refusal := .next (beginHold .external s)

/-- RESET_HOLD_END (R142). -/
def execResetHoldEnd (rate1 rate0 : Bool) (addr1 addr0 : StrapLevel) (s : State) : Host.Outcome State Fault Refusal :=
  .next (endHold rate1 rate0 addr1 addr0 s)

/-- HALT (R141): an urgent frame that the receiver kept (log 6). -/
def execHalt (tag : Byte) (s : State) : Host.Outcome State Fault Refusal :=
  .next (whenRunning (fun s => finishLine (takeHalt tag s)) s)

/-- CORE_RESET (R143): an urgent frame that the receiver kept (log 6). -/
def execCoreReset (s : State) : Host.Outcome State Fault Refusal := .next (whenRunning coreReset s)

end Sys2Proof.Machine
end

