-- ==== Sys2Proof/Machine/Line.lean ====
section
/-! DEFINITION. The Line Receiver: the frame assembler, rejects and the second search (R163, R164), acceptance (R165), the
inbound queue (R167) and the commands of RXD. -/

namespace Sys2Proof.Machine

/-! ### Frames -/

/-- A complete frame out of its held bytes (R161). -/
def InFrame.ofBytes (held : List Byte) : InFrame :=
  { dest := held.getD 1 0, kind := held.getD 2 0, tag := held.getD 3 0, payload := slice held 5 (field held 4 1) }

/-- R161: the two CRC bytes equal the CRC over the bytes from DEST to the last payload byte. -/
def goodCrc (held : List Byte) : Bool :=
  decide (field held (5 + field held 4 1) 2 = (frameCrc (slice held 1 (4 + field held 4 1))).toNat)

/-- A change of the assembler. -/
def setAssembler (a : Assembler) (s : State) : State := { s with lrx := { s.lrx with assembler := a } }

/-- What is left to do with the bytes still to be taken: some come before them, or a CORE_RESET drops them (log 9). -/
inductive Search where
  | again (bytes : List Byte)
  | drop
  deriving DecidableEq, Repr

/-- R164: a reject sets REJECT, raises LINK_ERROR and returns the assembler to HUNT. -/
def rejectFrame (trouble : LinkTrouble) (s : State) : State :=
  let s := setAssembler .hunt s
  raiseNotice .linkError trouble.code { s with ltx := { s.ltx with reject := true } }

/-- R164: a reject whose held bytes after the SYNC are searched again. -/
def rejectHeld (trouble : LinkTrouble) (held : List Byte) (s : State) : State × Search :=
  (rejectFrame trouble s, .again held.tail)

/-- R167: a kept frame joins the inbound queue, or is lost to overrun. -/
def appendInbound (f : InFrame) (s : State) : State :=
  if s.lrx.inbound.length < Config.inboundLimit then setInbound (s.lrx.inbound ++ [f]) s
  else raiseNotice .linkError LinkTrouble.overrun.code { s with ltx := { s.ltx with overrun := true } }

/-- R165 steps 1, 2: whether a node keeps a frame. -/
def InFrame.keptBy (f : InFrame) (address : Option (Fin 4)) : Bool :=
  match address with
  | none => f.dest == Config.broadcast && f.kind == kindNodeAssign
  | some a => f.dest == Config.broadcast || f.dest == BitVec.ofNat 8 a.val

/-- R165 steps 3 to 5: what becomes of a kept frame. -/
def acceptKept (f : InFrame) (held : List Byte) (s : State) : State × Search :=
  if f.kind = kindHalt ∨ f.kind = kindCoreReset then
    if f.payload ≠ [] then rejectHeld .length held s
    else if f.kind = kindHalt then (takeHalt f.tag s, .again [])
    else (coreReset s, .drop)
  else if f.kind = kindMeas ∧ f.dest = Config.broadcast then (discard .broadcast s, .again [])
  else (appendInbound f s, .again [])

/-- R164, R165: a frame whose last CRC byte has come. -/
def completeFrame (held : List Byte) (s : State) : State × Search :=
  if goodCrc held = false then rejectHeld .crc held s
  else if (InFrame.ofBytes held).keptBy s.lrx.nodeAddress then
    acceptKept (.ofBytes held) held (setAssembler .hunt s)
  else (setAssembler .hunt s, .again [])

/-- R163, R164: one good character joins a frame. -/
def extendFrame (held : List Byte) (s : State) : State × Search :=
  if held.length = 5 ∧ Config.maxInboundLen < field held 4 1 then rejectHeld .length held s
  else if held.length = 7 + field held 4 1 then completeFrame held s
  else (setAssembler (.frame held) s, .again [])

/-- R163: one good character. -/
def takeChar (b : Byte) (s : State) : State × Search :=
  match s.lrx.assembler with
  | .hunt => if b = Config.sync then (setAssembler (.frame [b]) s, .again []) else (s, .again [])
  | .frame held => extendFrame (held ++ [b]) s

/-- R164: characters are taken in order, those to be searched again before those still to come. Every reject drops a SYNC,
so `searchFuel` steps are enough. -/
def takeChars : Nat → List Byte → State → State
  | 0, _, s => s
  | _ + 1, [], s => s
  | fuel + 1, b :: rest, s =>
    match takeChar b s with
    | (s', .again bytes) => takeChars fuel (bytes ++ rest) s'
    | (s', .drop) => s'

/-- Bytes that the assembler holds. -/
def Assembler.held : Assembler → List Byte
  | .hunt => []
  | .frame held => held

/-- Steps that any search over `total` bytes can take. -/
def searchFuel (total : Nat) : Nat := (total + 1) * (total + 2)

/-- R164: bytes are taken as if they had just arrived. -/
def search (bytes : List Byte) (s : State) : State :=
  takeChars (searchFuel (bytes.length + s.lrx.assembler.held.length)) bytes s

/-- R163, R164: in FRAME the gap timer runs from the end of the last character received, under the limit in force as that
gap began (R123); in HUNT it is stopped. -/
def timeGap (s : State) : State :=
  { s with lrx := { s.lrx with gapTimer := match s.lrx.assembler with
      | .hunt => none
      | .frame _ => some s.lrx.gapEnd } }

/-- The end of an event on RXD. -/
def finishReception (s : State) : State := finishLine (timeGap s)

/-- A character ends now, and the gap that follows it begins under the gap limit in force (R123, R163). -/
def markChar (s : State) : State := { s with lrx := { s.lrx with gapEnd := s.now + s.link.gapLimit } }

/-- R163: a good character arrives. -/
def onChar (b : Byte) (s : State) : State := finishReception (search [b] (markChar s))

/-- R164: a held frame is rejected and its bytes after the SYNC are searched again; in HUNT nothing is rejected. -/
def rejectAndSearch (trouble : LinkTrouble) (s : State) : State :=
  match s.lrx.assembler with
  | .hunt => s
  | .frame held => search held.tail (rejectFrame trouble s)

/-- R164: a break drops every held byte; in HUNT it is passed over. -/
def rejectAndDrop (s : State) : State :=
  match s.lrx.assembler with
  | .hunt => s
  | .frame _ => rejectFrame .lineBreak s

/-- R164: what a FRAME_REJECT brings. -/
def onFrameReject (trouble : LineTrouble) (s : State) : State :=
  match trouble with
  | .length len => onChar len s
  | .framing => finishReception (rejectAndSearch .framing (markChar s))
  | .lineBreak => finishReception (rejectAndDrop (markChar s))

/-- R164: the gap timer expires. -/
def onGapTimer (s : State) : State :=
  match s.lrx.gapTimer with
  | some expires => finishReception (rejectAndSearch .gap (advanceTo expires s))
  | none => s

/-- R163: whether a character that ends at `time` began when the gap timer had expired: it began one character time
before its end. -/
def State.gapOver (s : State) (time : Nat) : Bool :=
  match s.lrx.assembler, s.lrx.gapTimer with
  | .frame _, some expires =>
    decide (Config.ticksPerUs * expires + s.rate.charTicks ≤ Config.ticksPerUs * max s.now time)
  | _, _ => false

/-- R163, R164: the expiries that come before a character that ends at `time` began. Each drops a SYNC, so as many steps
as there are held bytes are enough. -/
def expireGaps (time : Nat) : Nat → State → State
  | 0, s => s
  | fuel + 1, s => if s.gapOver time then expireGaps time fuel (onGapTimer s) else s

/-- A character, good or bad, ends at `time`: gaps that ran out before it began come first (log 7). -/
def charEndsAt (time : Nat) (s : State) : State := advanceTo time (expireGaps time s.lrx.assembler.held.length s)

/-! ### The commands -/

/-- CHARACTER_RECEIVED (R163): a good character; the assembler decides what it makes (log 5). -/
def execCharacterReceived (time : Nat) (char : Byte) (s : State) : Host.Outcome State Fault Refusal :=
  .next (whenRunning (fun s => onChar char (charEndsAt time s)) s)

/-- FRAME_COMPLETE (R165): a good character that ends a frame; the assembler decides what it makes (log 5). -/
def execFrameComplete (time : Nat) (char : Byte) (s : State) : Host.Outcome State Fault Refusal :=
  .next (whenRunning (fun s => onChar char (charEndsAt time s)) s)

/-- FRAME_REJECT (R164). -/
def execFrameReject (time : Nat) (trouble : LineTrouble) (s : State) : Host.Outcome State Fault Refusal :=
  .next (whenRunning (fun s => onFrameReject trouble (charEndsAt time s)) s)

/-- GAP_TIMER (R164). -/
def execGapTimer (s : State) : Host.Outcome State Fault Refusal := .next (whenRunning onGapTimer s)

end Sys2Proof.Machine
end

