-- ==== Sys2Proof/Machine/Dispatcher.lean ====
section
/-! DEFINITION. The Dispatcher's rows (R169), the arbiter and the transmitter (R154, R166, R170, R171, R182). -/

namespace Sys2Proof.Machine

/-! ### Serving the head (R169) -/

/-- R169: a frame is removed from the head and its effect is taken. -/
def serveHead (effect : InFrame → State → State) (f : InFrame) (rest : List InFrame) (s : State) : State :=
  effect f (setInbound rest s)

/-- What the Dispatcher does with a frame, by its KIND (R169). -/
def effectOf (kind : Option RequestKind) : InFrame → State → State :=
  match kind with
  | some .meas => serveMeas
  | some .statusQuery => serveStatusQuery
  | some .pocketQuery => servePocketQuery
  | some .outletQuery => serveOutletQuery
  | some .tableWrite => serveTableWrite
  | some .tableRead => serveTableRead
  | some .tableDiscard => serveTableDiscard
  | some .tableCommit => serveTableCommit
  | some .lotStart => serveLotStart
  | some .lotEnd => serveLotEnd
  | some .lotAbort => serveLotAbort
  | some .outletReset => serveOutletReset
  | some .clearFault => serveClearFault
  | some .noticeAck => serveNoticeAck
  | some .noticeMask => serveNoticeMask
  | some .nodeAssign => serveNodeAssign
  | none => serveUnknownKind

/-- R169: the head is served when it has the KIND of the row and its condition is met; else nothing happens (log 4). -/
def serve (kind : Option RequestKind) (effect : InFrame → State → State) (s : State) : State :=
  match s.lrx.inbound with
  | f :: rest =>
    if RequestKind.ofByte f.kind = kind ∧ headServed f s then finishLine (serveHead effect f rest s) else s
  | [] => s

/-- A Dispatcher row: nothing is served while the engine is held in reset (R142). -/
def serveRow (kind : RequestKind) (effect : InFrame → State → State) (s : State) :
    Host.Outcome State Fault Refusal :=
  .next (whenRunning (serve (some kind) effect) s)

/-- MEAS (R31). -/
def execMeas (s : State) : Host.Outcome State Fault Refusal := serveRow .meas serveMeas s
/-- STATUS_QUERY (R173). -/
def execStatusQuery (s : State) : Host.Outcome State Fault Refusal := serveRow .statusQuery serveStatusQuery s
/-- POCKET_QUERY (R174). -/
def execPocketQuery (s : State) : Host.Outcome State Fault Refusal := serveRow .pocketQuery servePocketQuery s
/-- OUTLET_QUERY (R175). -/
def execOutletQuery (s : State) : Host.Outcome State Fault Refusal := serveRow .outletQuery serveOutletQuery s
/-- TABLE_WRITE (R116). -/
def execTableWrite (s : State) : Host.Outcome State Fault Refusal := serveRow .tableWrite serveTableWrite s
/-- TABLE_READ (R124). -/
def execTableRead (s : State) : Host.Outcome State Fault Refusal := serveRow .tableRead serveTableRead s
/-- TABLE_DISCARD (R118). -/
def execTableDiscard (s : State) : Host.Outcome State Fault Refusal := serveRow .tableDiscard serveTableDiscard s
/-- TABLE_COMMIT (R119). -/
def execTableCommit (s : State) : Host.Outcome State Fault Refusal := serveRow .tableCommit serveTableCommit s
/-- LOT_START (R128). -/
def execLotStart (s : State) : Host.Outcome State Fault Refusal := serveRow .lotStart serveLotStart s
/-- LOT_END (R129). -/
def execLotEnd (s : State) : Host.Outcome State Fault Refusal := serveRow .lotEnd serveLotEnd s
/-- LOT_ABORT (R130). -/
def execLotAbort (s : State) : Host.Outcome State Fault Refusal := serveRow .lotAbort serveLotAbort s
/-- OUTLET_RESET (R63). -/
def execOutletReset (s : State) : Host.Outcome State Fault Refusal := serveRow .outletReset serveOutletReset s
/-- CLEAR_FAULT (R138). -/
def execClearFault (s : State) : Host.Outcome State Fault Refusal := serveRow .clearFault serveClearFault s
/-- NOTICE_ACK (R178). -/
def execNoticeAck (s : State) : Host.Outcome State Fault Refusal := serveRow .noticeAck serveNoticeAck s
/-- NOTICE_MASK (R178). -/
def execNoticeMask (s : State) : Host.Outcome State Fault Refusal := serveRow .noticeMask serveNoticeMask s
/-- NODE_ASSIGN (R179). -/
def execNodeAssign (s : State) : Host.Outcome State Fault Refusal := serveRow .nodeAssign serveNodeAssign s
/-- UNKNOWN_KIND (R169). -/
def execUnknownKind (s : State) : Host.Outcome State Fault Refusal :=
  .next (whenRunning (serve none serveUnknownKind) s)

/-! ### The arbiter (R170) -/

/-- R166, R170: the oldest urgent replies take the free places, one each. -/
def admitUrgent (s : State) : State :=
  let room := Config.outboundLimit - s.ltx.outbound.length
  { s with ltx := { s.ltx with outbound := s.ltx.outbound ++ s.lrx.urgent.take room },
           lrx := { s.lrx with urgent := s.lrx.urgent.drop room } }

/-- R170: a head that waited is served when its condition is met; one head to an event (log 16). -/
def serveWaiting (waited : Bool) (s : State) : State :=
  match s.lrx.inbound with
  | f :: rest =>
    if waited ∧ headServed f s then serveHead (effectOf (RequestKind.ofByte f.kind)) f rest s else s
  | [] => s

/-- TXD becomes idle at an instant. -/
def quietTxd (since : Nat) (s : State) : State := { s with ltx := { s.ltx with txd := .idle since } }

/-- R171: the head frame has been sent and leaves the queue. -/
def freePlace (s : State) : State := { s with ltx := { s.ltx with outbound := s.ltx.outbound.tail } }

/-- R170: the free places go to the waiting producers in their order. -/
def arbitrate (waited : Bool) (s : State) : State := queueOwed (summaryStep (serveWaiting waited (admitUrgent s)))

/-- R170, R171: a transmission ends, places are given, and the next transmission begins. The end of a cut frame frees no
place: its frame left the queue at the CORE_RESET. -/
def onTransmissionEnd (s : State) : State :=
  match s.ltx.txd with
  | .sending _ ends =>
    startTransmission (arbitrate s.headWaits (freePlace (quietTxd ends (advanceTo (ends / Config.ticksPerUs) s))))
  | .cut ends => startTransmission (quietTxd ends (advanceTo (ends / Config.ticksPerUs) s))
  | .idle _ => s

/-- R170: a waiting HALT reply, the oldest, takes a place. -/
def onUrgentReply (s : State) : State :=
  match s.lrx.urgent with
  | r :: rest =>
    if s.ltx.outbound.length < Config.outboundLimit then
      finishLine { s with ltx := { s.ltx with outbound := s.ltx.outbound ++ [r] }, lrx := { s.lrx with urgent := rest } }
    else s
  | [] => s

/-- R182: the lowest-numbered owed condition whose frame can be queued. -/
def State.nextOwed (s : State) : Option Condition := Condition.all.find? fun c => s.notices[c.index].owed

/-- R182: an owed frame is queued after every other producer that waits. -/
def onNotice (s : State) : State :=
  match s.nextOwed with
  | some c =>
    if s.producerWaits = false then
      startTransmission { s with notices := (queueNotice (s.notices, s.ltx) c).1, ltx := (queueNotice (s.notices, s.ltx) c).2 }
    else s
  | none => s

/-- TRANSMISSION_END (R170, R171). -/
def execTransmissionEnd (s : State) : Host.Outcome State Fault Refusal := .next (whenRunning onTransmissionEnd s)

/-- URGENT_REPLY (R166, R170). -/
def execUrgentReply (s : State) : Host.Outcome State Fault Refusal := .next (whenRunning onUrgentReply s)

/-- R154: the SUMMARY stage tests for its place, and closes the lot when it can. -/
def onSummaryStage (s : State) : State := if s.closeKind.isSome then finishLine (summaryStep s) else s

/-- SUMMARY_STAGE (R154, R155). -/
def execSummaryStage (s : State) : Host.Outcome State Fault Refusal := .next (whenRunning onSummaryStage s)

/-- NOTICE (R182). -/
def execNotice (s : State) : Host.Outcome State Fault Refusal := .next (whenRunning onNotice s)

end Sys2Proof.Machine
end

