-- ==== Sys2Proof/Machine/Clock.lean ====
section
/-! DEFINITION. What the block does when no command waits: its own next event, or 1 µs passes (log 3). -/

namespace Sys2Proof.Machine

/-- The row that serves a KIND (R169). -/
def RequestKind.command : RequestKind → Instr
  | .meas => .meas
  | .statusQuery => .statusQuery
  | .pocketQuery => .pocketQuery
  | .outletQuery => .outletQuery
  | .tableWrite => .tableWrite
  | .tableRead => .tableRead
  | .tableDiscard => .tableDiscard
  | .tableCommit => .tableCommit
  | .lotStart => .lotStart
  | .lotEnd => .lotEnd
  | .lotAbort => .lotAbort
  | .outletReset => .outletReset
  | .clearFault => .clearFault
  | .noticeAck => .noticeAck
  | .noticeMask => .noticeMask
  | .nodeAssign => .nodeAssign

/-- The row that serves an inbound frame. -/
def commandOf (f : InFrame) : Instr :=
  match RequestKind.ofByte f.kind with
  | some kind => kind.command
  | none => .unknownKind

/-- R169: the head that can be served now. -/
def State.dispatcherEvent (s : State) : Option Instr :=
  match s.lrx.inbound with
  | f :: _ => if headServed f s then some (commandOf f) else none
  | [] => none

/-- R166, R154, R182: a producer whose place is free. -/
def State.producerEvent (s : State) : Option Instr :=
  if s.lrx.urgent ≠ [] ∧ s.ltx.outbound.length < Config.outboundLimit then some .urgentReply
  else if s.closeKind.isSome then some .summaryStage
  else if s.nextOwed.isSome ∧ s.producerWaits = false ∧ s.ltx.outbound.length < Config.outboundLimit then some .notice
  else none

/-- Whether a deadline has come. -/
def State.due (s : State) (deadline : Nat) : Bool := decide (deadline ≤ s.now)

/-- R71: the fire delay of a slot in DELAY. -/
def State.fireDue (s : State) (n : Fin 16) : Bool :=
  match s.outlets[n].slot with
  | .delay _ expires => s.firesAllowed && s.due expires
  | .due _ => false
  | .free => false

/-- R74, R76: the pulse or ack timer of a drive. -/
def State.driveEvent (s : State) (n : Fin 16) : Option Instr :=
  match s.outlets[n].drive with
  | .pulse ends => if s.due ends then some (.pulseEnd n) else none
  | .strobe expires _ => if s.due expires then some (.ackLimitExpiry n) else none
  | .quiet => none

/-- R86: the flight window of the head entry. -/
def State.flightDue (s : State) (n : Fin 16) : Bool :=
  match s.outletEntry n, s.outlets[n].queue with
  | some cfg, e :: _ => s.lotOpen && s.due (e.fireTime + cfg.flightMax)
  | _, _ => false

/-- The timers of one outlet. -/
def State.outletEvent (s : State) (n : Fin 16) : Option Instr :=
  if s.fireDue n then some (.fireDelayExpiry n)
  else
    match s.driveEvent n with
    | some c => some c
    | none => if s.flightDue n then some (.flightMaxMiss n) else none

/-- R171: when what TXD carries ends, in ticks. -/
def Txd.ends : Txd → Option Nat
  | .idle _ => none | .sending _ ends => some ends | .cut ends => some ends

/-- The timers of the line. The gap timer is known to have expired once no character that began in time can still be on
RXD (R163, log 7). -/
def State.lineEvent (s : State) : Option Instr :=
  if s.gapOver s.now then some .gapTimer
  else if s.ltx.txd.ends.any fun ends => s.due (ends / Config.ticksPerUs) then some .transmissionEnd
  else none

/-- The engine's own next event, in a fixed order (DESIGN CHOICE, log 3). A check sample reads the CHECK line, so its
command comes from outside. -/
def State.ownEvent (s : State) : Option Instr :=
  if s.held then none
  else
    match s.dispatcherEvent with
    | some c => some c
    | none =>
      match s.producerEvent with
      | some c => some c
      | none =>
        match allOutlets.findSome? s.outletEvent with
        | some c => some c
        | none => s.lineEvent

/-- No command waits (log 3). -/
def idle (s : State) : State :=
  match s.ownEvent with
  | some c => { s with pending := [c] }
  | none => { s with now := s.now + 1 }

end Sys2Proof.Machine
end

