-- ==== Sys2Proof/Machine/Dispatch.lean ====
section
/-! DEFINITION. One arm for each command. -/

namespace Sys2Proof.Machine

def exec (i : Instr) (s : State) : Host.Outcome State Fault Refusal :=
  match i with
  | .forwardIndex time home => Sys2Proof.Machine.execForwardIndex time home s
  | .reverseIndex time => Sys2Proof.Machine.execReverseIndex time s
  | .checkSample check => Sys2Proof.Machine.execCheckSample check s
  | .fireDelayExpiry outlet => Sys2Proof.Machine.execFireDelayExpiry outlet s
  | .pulseEnd outlet => Sys2Proof.Machine.execPulseEnd outlet s
  | .ack time outlet => Sys2Proof.Machine.execAck time outlet s
  | .ackLimitExpiry outlet => Sys2Proof.Machine.execAckLimitExpiry outlet s
  | .drop time outlet => Sys2Proof.Machine.execDrop time outlet s
  | .flightMaxMiss outlet => Sys2Proof.Machine.execFlightMaxMiss outlet s
  | .jamRise time => Sys2Proof.Machine.execJamRise time s
  | .jamFall time => Sys2Proof.Machine.execJamFall time s
  | .powerOn => Sys2Proof.Machine.execPowerOn s
  | .supplyLow => Sys2Proof.Machine.execSupplyLow s
  | .external => Sys2Proof.Machine.execExternal s
  | .frameReject time trouble => Sys2Proof.Machine.execFrameReject time trouble s
  | .gapTimer => Sys2Proof.Machine.execGapTimer s
  | .frameComplete time char => Sys2Proof.Machine.execFrameComplete time char s
  | .halt tag => Sys2Proof.Machine.execHalt tag s
  | .coreReset => Sys2Proof.Machine.execCoreReset s
  | .meas => Sys2Proof.Machine.execMeas s
  | .statusQuery => Sys2Proof.Machine.execStatusQuery s
  | .pocketQuery => Sys2Proof.Machine.execPocketQuery s
  | .outletQuery => Sys2Proof.Machine.execOutletQuery s
  | .tableWrite => Sys2Proof.Machine.execTableWrite s
  | .tableRead => Sys2Proof.Machine.execTableRead s
  | .tableDiscard => Sys2Proof.Machine.execTableDiscard s
  | .tableCommit => Sys2Proof.Machine.execTableCommit s
  | .lotStart => Sys2Proof.Machine.execLotStart s
  | .lotEnd => Sys2Proof.Machine.execLotEnd s
  | .lotAbort => Sys2Proof.Machine.execLotAbort s
  | .outletReset => Sys2Proof.Machine.execOutletReset s
  | .clearFault => Sys2Proof.Machine.execClearFault s
  | .noticeAck => Sys2Proof.Machine.execNoticeAck s
  | .noticeMask => Sys2Proof.Machine.execNoticeMask s
  | .nodeAssign => Sys2Proof.Machine.execNodeAssign s
  | .unknownKind => Sys2Proof.Machine.execUnknownKind s
  | .transmissionEnd => Sys2Proof.Machine.execTransmissionEnd s
  | .urgentReply => Sys2Proof.Machine.execUrgentReply s
  | .summaryStage => Sys2Proof.Machine.execSummaryStage s
  | .notice => Sys2Proof.Machine.execNotice s
  | .characterReceived time char => Sys2Proof.Machine.execCharacterReceived time char s
  | .resetHoldEnd rate1 rate0 addr1 addr0 => Sys2Proof.Machine.execResetHoldEnd rate1 rate0 addr1 addr0 s

end Sys2Proof.Machine
end

