-- ==== Sys2Proof/Safety.lean ====
section
/-! DEFINITION. The vocabulary of the claims: completion, and the laws that every step keeps. -/

namespace Sys2Proof.Machine

/-! ### Completion -/

/-- The outcome is a next state with a property. -/
def Completes (outcome : Host.Outcome State Fault Refusal) (holds : State → Prop) : Prop :=
  ∃ t, outcome = .next t ∧ holds t

/-- The outcome is the end of an event (the stage tests, owed notices, the start of a transmission) on a state `u` that the
event's own effect has made (what the end of an event holds, and its order, is the model's reading, log 13, log 14, log 24,
log 32). -/
def EndsEvent (outcome : Host.Outcome State Fault Refusal) (holds : State → Prop) : Prop :=
  ∃ u, outcome = .next (finishEvent u) ∧ holds u

/-- As `EndsEvent`, for events that make no stage test of their own: owed notices and the start of a transmission. -/
def EndsOnLine (outcome : Host.Outcome State Fault Refusal) (holds : State → Prop) : Prop :=
  ∃ u, outcome = .next (finishLine u) ∧ holds u

/-! ### The premises of the Dispatcher's claims -/

/-- The Dispatcher can serve the head frame `f`, which has this KIND (R169). -/
structure Serves (s : State) (kind : RequestKind) (f : InFrame) (rest : List InFrame) : Prop where
  running : s.held = false
  head : s.lrx.inbound = f :: rest
  isKind : RequestKind.ofByte f.kind = some kind
  ready : headServed f s = true

/-- A state with the REPLY to a frame at the tail of its outbound queue (R172). -/
def answer (f : InFrame) (kind : Byte) (result : ResultCode) (bytes : List Byte) (s : State) : State :=
  { s with ltx := { s.ltx with
      outbound := s.ltx.outbound ++ [{ tag := f.tag, body := .reply kind result bytes, flags := none }] } }

/-- The head frame is a MEAS that passes the tests of R31 up to its placement at offset `k`, on record `r`. -/
structure MeasAt (s : State) (f : InFrame) (rest : List InFrame) (k : Nat) (r : PocketRecord) (m : Meas) : Prop where
  serves : Serves s .meas f rest
  lot : s.lotOpen = true
  payload : Meas.ofPayload f.payload = some m
  station : ∃ e, s.station m.station = some e ∧ s.place e m.pocket = .placed k
  belongs : m.status.belongsTo m.station = true
  record : s.tracker.ring[k]? = some r

/-- The result that an accepted MEAS adds to its record (R4). -/
def Meas.result (m : Meas) : Result := { station := m.station, status := m.status, value := m.value }

/-- An enabled entry of the active CLASS table contains a deviation, both limits inclusive (R39). -/
def State.classContains (s : State) (d : Int) (c : Fin 32) : Prop :=
  ∃ t e, s.tables.active = some t ∧ t.classes[c] = some e ∧ e.enabled = true ∧ e.lo ≤ d ∧ d ≤ e.hi

/-- The first entry in index order that contains a deviation (R39). -/
def State.firstClass (s : State) (d : Int) (c : Fin 32) : Prop :=
  s.classContains d c ∧ ∀ c' : Fin 32, c' < c → ¬ s.classContains d c'

/-- Between `s` and `u` a record at offset `k`, otherwise as `r` gives it, has received its final verdict, has been routed
and is DECIDED, and its outlet has reserved 1 (R45 to R47). -/
def State.decides (s u : State) (k : Nat) (r : PocketRecord) (v : Verdict) (reason : Reason) : Prop :=
  u.tracker = { s.tracker with
      ring := s.tracker.ring.set k { r with
        finalClass := some v, reason := some reason, target := some (s.route (s.firstCandidate v) k), phase := .decided } }
    ∧ ∀ n : Fin 16, u.outlets[n] = { s.outlets[n] with
        reserved := s.outlets[n].reserved + if (s.route (s.firstCandidate v) k).outlet = n then 1 else 0 }

/-- What an applied MEAS frame leaves alone, the frame itself having left the inbound queue. -/
structure MeasKeeps (s u : State) (rest : List InFrame) : Prop where
  tables : u.tables = s.tables
  notices : u.notices = s.notices
  outbound : u.ltx = s.ltx
  inbound : u.lrx.inbound = rest
  time : u.now = s.now
  lines : u.jam = s.jam ∧ u.rate = s.rate ∧ u.held = s.held

/-! ### Routing (R55, R56) -/

/-- The candidates of R56 in order: the first one, then the overflow outlet that each candidate's active entry names. -/
def State.candidate (s : State) (first : Fin 16) : Nat → Option (Fin 16)
  | 0 => some first
  | i + 1 => (s.candidate first i).bind fun c => (s.outletEntry c).bind OutletEntry.overflow

/-! ### Misses (R86, R97, R99) -/

/-- One more miss takes the miss run of an outlet to its miss limit, which is not 0 (R86), or finds it there or above, after
a commit that lowered the limit (log 20). -/
def State.missFaults (s : State) (n : Fin 16) : Prop :=
  ∃ cfg, s.outletEntry n = some cfg ∧ cfg.missLimit ≠ 0 ∧ cfg.missLimit ≤ min (s.outlets[n].missRun + 1) 15

/-- Between `s` and `u` outlet `n` has taken a miss that leaves the entries `queue`: reserved − 1 and miss run + 1, which at
the miss limit (log 20) faults the outlet, raises OUTLET_FAULT and strands the record of its slot (R64, R81, R86). -/
structure MissTaken (s u : State) (n : Fin 16) (queue : List Entry) : Prop where
  queue : u.outlets[n].queue = queue
  missRun : u.outlets[n].missRun = min (s.outlets[n].missRun + 1) 15
  counts : u.outlets[n].committed = s.outlets[n].committed ∧ u.outlets[n].lotTotal = s.outlets[n].lotTotal
  below : ¬ s.missFaults n → u.outlets[n].state = s.outlets[n].state ∧ u.notices[(3 : Fin 11)] = s.notices[(3 : Fin 11)]
  limit : s.missFaults n → u.outlets[n].state = .faulted
  notice : s.missFaults n → s.outlets[n].state ≠ .faulted →
    u.notices[(3 : Fin 11)] = s.notices[(3 : Fin 11)].raised n.val
  again : s.outlets[n].state = .faulted → u.notices[(3 : Fin 11)] = s.notices[(3 : Fin 11)]
  reserved : ¬ s.missFaults n ∨ s.outlets[n].slot = .free → u.outlets[n].reserved = s.outlets[n].reserved - 1
  slot : ∀ name k r, s.missFaults n → s.outlets[n].slot.name = some name → s.ringOffset name = some k →
    s.tracker.ring[k]? = some r → r.phase = .decided → r.target.map Route.outlet = some n →
    u.outlets[n].reserved = s.outlets[n].reserved - 2
      ∧ u.tracker.ring[k]? = some { r with phase := .stranded, reason := some .outletFaulted, target := none }
  others : ∀ m : Fin 16, m ≠ n → u.outlets[m].queue = s.outlets[m].queue ∧ u.outlets[m].committed = s.outlets[m].committed
    ∧ u.outlets[m].lotTotal = s.outlets[m].lotTotal ∧ u.outlets[m].missRun = s.outlets[m].missRun
    ∧ u.outlets[m].state = s.outlets[m].state

/-! ### Releases (R59, R69) -/

/-- The ring record that a slot or claim names (R7, R69). -/
def State.namedRecord (s : State) (name : Option RecordName) : Option PocketRecord :=
  (name.bind s.ringOffset).bind fun k => s.tracker.ring[k]?

/-- The reservation of outlet `m` that a slot or claim with this name stands for: 1 when it names a DECIDED ring record whose
target is `m` (R54, R69). -/
def State.heldFor (s : State) (name : Option RecordName) (m : Fin 16) : Nat :=
  if (s.namedRecord name).any (fun r => r.decidedFor m) then 1 else 0

/-- An outlet that has forgotten these records: slots and strobe claims that named them are ended and withdrawn (R69). -/
def Outlet.forgetAll (records : List PocketRecord) (o : Outlet) : Outlet := records.foldl (fun o r => o.forget r.name) o

/-- The record that a slot or claim names, when it is DECIDED. -/
def State.namedDecided (s : State) (name : Option RecordName) : List PocketRecord :=
  ((s.namedRecord name).filter fun r => r.phase == .decided).toList

/-- Outlet `n` after a release of `r`: nothing when the record was not DECIDED; else its target outlet has lost 1 from
reserved and no outlet holds the record in a slot or a claim (R59, R69). -/
def Outlet.released (o : Outlet) (r : PocketRecord) (n : Fin 16) : Outlet :=
  if r.phase = .decided then
    Outlet.forget r.name { o with reserved := if r.target.map Route.outlet = some n then o.reserved - 1 else o.reserved }
  else o

/-- Between `s` and `u` no outlet has changed but for the release of `r` when it was DECIDED (R59). -/
def ReleasedOnly (s u : State) (r : PocketRecord) : Prop := ∀ n : Fin 16, u.outlets[n] = s.outlets[n].released r n

/-- As `ReleasedOnly`, with a fault raised after the release: its entry into HALTED ends every slot (R80, R136). -/
def ReleasedWithFault (s u : State) (r : PocketRecord) : Prop :=
  ∀ n : Fin 16, u.outlets[n] = { s.outlets[n].released r n with
    slot := if s.firesAllowed then .free else (s.outlets[n].released r n).slot }

/-- The records that have just left their target outlets' offsets in DECIDED, by outlet number (R16). -/
def State.passing (s : State) : List PocketRecord :=
  (List.finRange 16).filterMap fun n => (s.outletEntry n).bind fun e =>
    (s.tracker.ring[e.offset + 1]?).filter fun r => r.decidedFor n

/-- Counted DECIDED ring records from offset 0 on. -/
def State.countedDecided (s : State) : List PocketRecord :=
  s.tracker.ring.filter fun r => r.counted && r.phase == .decided

/-! ### Bookings (R100) -/

/-- Between `s` and `u` exactly one part has been booked with this pocket and report when `booked`, and none otherwise. -/
structure Books (s u : State) (booked : Bool) (pocket : Nat) (report : SortReport) : Prop where
  sup : u.sup = { s.sup with
    unaccounted := if booked then min (s.sup.unaccounted + 1) 4294967295 else s.sup.unaccounted }
  notice : booked = true → u.notices[(8 : Fin 11)] = s.notices[(8 : Fin 11)].raised pocket
  quiet : booked = false → u.notices[(8 : Fin 11)] = s.notices[(8 : Fin 11)]
  report : u.ltx = if booked then s.ltx.offer report else s.ltx

/-- The UNACCOUNTED report of a record: at its target, or at the sweep outlet with hop count 5 (R88, R100). -/
def State.unaccountedReport (s : State) (r : PocketRecord) (pocket : Nat) : SortReport :=
  { pocket := pocket, outcome := .unaccounted,
    outlet := match r.target with
      | some t => t.outlet
      | none => s.sweepOutlet
    hops := match r.target with
      | some t => t.hops
      | none => 5
    seq := r.seq, finalClass := r.finalClass, reason := r.reason, deviation := r.deviation, drift := r.drift,
    flightTime := none }

/-- The reports of the counted HELD, DECIDED, STRANDED and RETAINED ring records, from offset 0 to Z (R100, R130, R152). -/
def State.ringReports (s : State) : List SortReport :=
  (s.tracker.ring.zipIdx.filter fun x => x.1.standing).map fun x => s.unaccountedReport x.1 (s.pocketAt x.2)

/-- The reports of the counted confirmation entries by outlet number, oldest first (R100, R130): the pocket of the record
where it is found, else the entry's. -/
def State.entryReports (s : State) : List SortReport :=
  allOutlets.flatMap fun n => (s.outlets[n].queue.filter Entry.counted).map fun e =>
    { pocket := ((s.firingPlace e.name).map s.pocketOf).getD e.pocket, outcome := .unaccounted, outlet := n, hops := e.hops,
      seq := e.name.seq, finalClass := e.finalClass, reason := e.reason, deviation := e.deviation, drift := e.drift,
      flightTime := none }

/-- A transmitter to which reports have been offered in this order (R170). -/
def LineTransmitter.offerAll (l : LineTransmitter) (reports : List SortReport) : LineTransmitter :=
  reports.foldl (fun l r => l.offer r) l

/-- Between `s` and `u` notice UNACCOUNTED has been raised for each of these reports, in their order (R100). -/
def RaisedFor (s u : State) (reports : List SortReport) : Prop :=
  (∀ r, reports.getLast? = some r → u.notices[(8 : Fin 11)] = s.notices[(8 : Fin 11)].raised r.pocket) ∧
    (reports = [] → u.notices[(8 : Fin 11)] = s.notices[(8 : Fin 11)])

/-! ### Held bytes (R163) -/

/-- Held bytes from a SYNC on that neither end a frame nor give a LEN above 56. -/
def Incomplete (held : List Byte) : Prop :=
  held.length < 5 ∨ (held.getD 4 0).toNat ≤ 56 ∧ held.length < 7 + (held.getD 4 0).toNat

/-- R163: a character that ends at `time` began, one character time before, while the gap timer ran or was stopped. -/
def State.inTime (s : State) (time : Nat) : Prop :=
  ∀ expires, s.lrx.gapTimer = some expires → 8 * max s.now time < 8 * expires + s.rate.charTicks

/-- The assembler in HUNT after a character that ended at `time`. -/
def State.hunting (s : State) (time : Nat) : State :=
  { s with
    now := max s.now time
    lrx := { s.lrx with assembler := .hunt, gapTimer := none, gapEnd := max s.now time + s.link.gapLimit } }

/-- The bytes of a frame from its SYNC to its last CRC byte, its CRC good (R161). -/
def frameBytes (dest kind tag : Byte) (payload : List Byte) : List Byte :=
  0xC3 :: dest :: kind :: tag :: BitVec.ofNat 8 payload.length :: payload
    ++ bytesOf 2 (frameCrc (dest :: kind :: tag :: BitVec.ofNat 8 payload.length :: payload)).toNat

/-! ### The table of the check sample (R96) -/

/-- The phase after a sample that finds CHECK inactive. -/
def clearPhase (counted : Bool) : Phase → Phase
  | .open => .open | .void => .void | .empty => .empty | .gone => .gone | .lost => .lost | .firing => .firing
  | .held => if counted then .lost else .void
  | .decided => if counted then .lost else .void
  | .stranded => if counted then .lost else .void
  | .retained => .lost

/-- The phases in which a record found present keeps its counted flag. -/
def keepsCounted : Phase → Bool
  | .firing => true | .held => true | .decided => true | .stranded => true | .retained => true
  | .open => false | .void => false | .empty => false | .gone => false | .lost => false

/-! ### The laws -/

/-- Confirmation entries of an outlet: at most 4 (R82), and a place is kept for the record of a strobe (R75). -/
def Outlet.queueBound (o : Outlet) : Prop :=
  match o.drive with
  | .strobe _ _ => o.queue.length < Config.queueLimit
  | .pulse _ => o.queue.length ≤ Config.queueLimit
  | .quiet => o.queue.length ≤ Config.queueLimit

/-- R8, R82, R134, R166, R167, R170: every queue keeps its limit. -/
structure QueueLaw (s : State) : Prop where
  inbound : s.lrx.inbound.length ≤ Config.inboundLimit
  outbound : s.ltx.outbound.length ≤ Config.outboundLimit
  urgent : s.lrx.urgent.length ≤ Config.urgentLimit
  stack : s.tracker.stack.length ≤ Config.stackLimit
  later : s.sup.faults.later.length ≤ Config.laterLimit
  confirmations : ∀ n : Fin 16, s.outlets[n].queueBound

/-- R126, R134, R146: HALTED, the first fault and the return state stand together, the later faults stand behind a first
fault, and the clearance record exists exactly while the lot is clearing. -/
structure SupervisorLaw (s : State) : Prop where
  halted_first : s.sup.engine = .halted ↔ s.sup.faults.first.isSome
  halted_return : s.sup.engine = .halted ↔ s.sup.returnState.isSome
  later_first : s.sup.faults.later ≠ [] ∨ s.sup.faults.overflow = true → s.sup.faults.first.isSome
  clearing : s.sup.clearance.isSome ↔ s.isClearing = true

/-- R3, R8, R27, R107: the active set exists outside UNCONFIGURED and has passed validation with its LINK record present;
an open lot holds a ring of Z+1 records and a load pocket below P; without a lot there is no record and no check delay. -/
structure GeometryLaw (s : State) : Prop where
  active : s.tables.active.isNone ↔ s.sup.engine = .unconfigured
  valid : ∀ t, s.tables.active = some t → t.invalid = none ∧ t.link.isSome
  ring : s.lotOpen = true → s.tracker.ring.length = s.z + 1
  loadPocket : s.lotOpen = true → ∃ p, s.tracker.loadPocket = some p ∧ p < s.dial.pockets
  noLot : s.lotOpen = false → s.tracker.ring = [] ∧ s.tracker.stack = [] ∧ s.tracker.checkTimer = none

/-- R51, R102, R146: every counter keeps its range. -/
structure CounterLaw (s : State) : Prop where
  present : s.sup.present ≤ Config.countMax
  unaccounted : s.sup.unaccounted ≤ Config.countMax
  recovered : s.sup.recovered ≤ Config.countMax
  strays : s.sup.strays ≤ Config.countMax
  outlets : ∀ n : Fin 16, s.outlets[n].committed ≤ Config.committedMax ∧ s.outlets[n].missRun ≤ Config.missRunMax
    ∧ s.outlets[n].lotTotal ≤ Config.countMax
  index : ∀ c, s.sup.clearance = some c → -Config.indexCountMax ≤ c.count ∧ c.count ≤ Config.indexCountMax

/-- R168: HOLD agrees with the inbound occupancy and the thresholds in force. -/
structure HoldLaw (s : State) : Prop where
  on : s.link.holdOn ≤ s.lrx.inbound.length → s.lrx.hold = true
  off : s.lrx.inbound.length ≤ s.link.holdOff → s.lrx.hold = false

/-! ### Names, slots and entries (R7, R69, R82) -/

/-- Every record of the Tracker, in the ring and in the stack. -/
def Tracker.records (t : Tracker) : List PocketRecord := t.ring ++ t.stack

/-- Every confirmation entry. -/
def State.entries (s : State) : List Entry := allOutlets.flatMap fun n => s.outlets[n].queue

/-- A name that a record has been given, which no record to come takes (R5, log 18). -/
def Tracker.hasIssued (t : Tracker) : RecordName → Prop
  | .numbered q => ∃ next, t.nextSeq = some next ∧ q < next
  | .unnumbered ident => ident < t.nextIdent

/-- A DECIDED record of the outlet, or, at the sweep outlet, a STRANDED or VOID one (R70, R91). -/
def State.firesFor (s : State) (n : Fin 16) (r : PocketRecord) : Prop :=
  r.decidedFor n = true ∨ s.isSweep n = true ∧ (r.phase = .stranded ∨ r.phase = .void)

/-- R7, R69, R82: names tell records and entries apart; FIRING records and entries belong together. -/
structure NameLaw (s : State) : Prop where
  records : (s.tracker.records.map PocketRecord.name).Nodup
  entries : (s.entries.map Entry.name).Nodup
  issued : ∀ r ∈ s.tracker.records, s.tracker.hasIssued r.name
  entryIssued : ∀ e ∈ s.entries, s.tracker.hasIssued e.name
  entryRecord : ∀ e ∈ s.entries, ∀ r ∈ s.tracker.records, r.name = e.name → r.phase = .firing ∧ r.counted = e.counted
  firingEntry : ∀ r ∈ s.tracker.records, r.phase = .firing → ∃ e ∈ s.entries, e.name = r.name

/-- R4, R6, R69, R96, R153: what a record's phase says of it, what a slot and a claim name, what stands at Z without a check
delay and in the stack, what is empty without a lot, and what has settled in SUMMARY. -/
structure RecordLaw (s : State) : Prop extends NameLaw s where
  uncounted : ∀ r ∈ s.tracker.records, r.phase = .open ∨ r.phase = .void ∨ r.phase = .empty → r.counted = false
  counted : ∀ r ∈ s.tracker.ring, r.phase = .held ∨ r.phase = .decided → r.counted = true
  slot : ∀ (n : Fin 16) name, s.outlets[n].slot.name = some name → s.tracker.hasIssued name ∧
    ∀ k r, s.tracker.ring[k]? = some r → r.name = name →
      s.firesFor n r ∧ ∃ cfg, s.outletEntry n = some cfg ∧ cfg.offset = k
  claim : ∀ (n : Fin 16) name, s.outlets[n].drive.claim = some name → s.tracker.hasIssued name ∧
    ∀ r ∈ s.tracker.ring, r.name = name → r.decidedFor n = true
  apart : ∀ (n : Fin 16) name, s.outlets[n].slot.name = some name → s.outlets[n].drive.claim ≠ some name
  atCheck : s.tracker.checkTimer = none → ∀ r, s.tracker.ring[s.z]? = some r →
    r.phase ≠ .held ∧ r.phase ≠ .decided ∧ r.phase ≠ .stranded ∧ (r.phase = .firing → r.checked = true)
  retired : ∀ r ∈ s.tracker.stack, r.phase.stands = false ∧ (r.phase = .firing → r.checked = true)
  noLot : s.lotOpen = false → ∀ n : Fin 16,
    s.outlets[n].queue = [] ∧ s.outlets[n].reserved = 0 ∧ s.outlets[n].slot = .free ∧ s.outlets[n].drive.claim = none
  summary : s.stage = some .summary → s.settleComplete = true

/-! ### The accounting of counted parts (R104) -/

/-- Counted ring records in HELD, DECIDED, STRANDED or RETAINED. -/
def State.standingCount (s : State) : Nat := (s.tracker.ring.filter PocketRecord.standing).length

/-- The sum of a count over the sixteen outlets. -/
def State.sumOutlets (s : State) (count : Outlet → Nat) : Nat := (allOutlets.map fun n => count s.outlets[n]).sum

/-- The right-hand side of R104's balance. -/
def State.accounted (s : State) : Nat :=
  s.sumOutlets Outlet.lotTotal + s.sup.unaccounted + s.standingCount
    + s.sumOutlets fun o => (o.queue.filter Entry.counted).length

/-- DECIDED ring records that name an outlet as their target (R54). -/
def State.decidedCount (s : State) (n : Fin 16) : Nat := (s.tracker.ring.filter fun r => r.decidedFor n).length

/-- No counter of the balance is held at its largest value (R51, R102). -/
def State.countersFree (s : State) : Prop :=
  s.sup.present < Config.countMax ∧ s.sup.unaccounted < Config.countMax
    ∧ ∀ n : Fin 16, s.outlets[n].lotTotal < Config.countMax

/-- R54, R104: the two laws of the Outlet Unit, and the balance of counted parts while no counter of it holds. -/
structure AccountLaw (s : State) : Prop where
  reserved : ∀ n : Fin 16, s.outlets[n].reserved = s.decidedCount n + s.outlets[n].queue.length
  capacity : ∀ (n : Fin 16) cfg, s.outletEntry n = some cfg → cfg.sweep = false →
    s.outlets[n].reserved = 0 ∨ s.outlets[n].committed + s.outlets[n].reserved ≤ cfg.capacity
  balance : s.countersFree → s.sup.present = s.accounted

end Sys2Proof.Machine
end

