-- ==== Sys2Proof/Certificates/Slice0/Obligations.lean ====
section
/-! DEFINITION. The statements about the TB16 for the provers. -/

section

open Sys2Proof Sys2Proof.Machine

/-! ### The block -/

/-- The command at the front of the queue is executed on the state with the queue's rest. -/
def Obligations.FrontCommandIsExecuted : Prop :=
  ∀ (c : Instr) (rest : List Instr) (s : State),
    step { s with pending := c :: rest } = exec c { s with pending := rest }

/-- No command stops the block: each of the table's completes, whatever the state (that none stops is the model's reading,
log 26). That the waiting commands are left alone and the time base is never turned back, by resets too, is the model's
choice (log 1, log 29). -/
def Obligations.EveryCommandCompletes : Prop :=
  ∀ (c : Instr) (s : State), Completes (exec c s) fun t => t.pending = s.pending ∧ s.now ≤ t.now

/-! ### Laws that every step keeps -/

/-- R8, R82, R134, R166, R167, R170: every queue keeps its limit. -/
def Obligations.QueueLawIsKept : Prop := ∀ s s' : State, QueueLaw s → step s = .next s' → QueueLaw s'

/-- R126, R134, R146: HALTED, the first fault, the return state and the clearance record stand together. -/
def Obligations.SupervisorLawIsKept : Prop :=
  ∀ s s' : State, SupervisorLaw s → step s = .next s' → SupervisorLaw s'

/-- R3, R8, R27, R107: the active set stays valid, an open lot holds Z+1 records, a closed one none. -/
def Obligations.GeometryLawIsKept : Prop := ∀ s s' : State, GeometryLaw s → step s = .next s' → GeometryLaw s'

/-- R51, R102, R146, R150: the counters keep their ranges. -/
def Obligations.CounterLawIsKept : Prop := ∀ s s' : State, CounterLaw s → step s = .next s' → CounterLaw s'

/-- R168: HOLD follows the inbound occupancy; the geometry law gives hold_off < hold_on. -/
def Obligations.HoldLawIsKept : Prop :=
  ∀ s s' : State, GeometryLaw s → HoldLaw s → step s = .next s' → HoldLaw s'

/-- R4, R6, R7, R69, R70, R82, R91, R96, R153: names, phases, slots, claims and entries agree after every step. The account
law bounds what is still reserved as a lot closes. -/
def Obligations.RecordLawIsKept : Prop :=
  ∀ s s' : State, GeometryLaw s → SupervisorLaw s → AccountLaw s → RecordLaw s → step s = .next s' → RecordLaw s'

/-- R54, R104: whatever the command, reserved counts the DECIDED records and entries of its outlet, stays with committed
within the capacity, and present balances the places of the counted parts. -/
def Obligations.AccountLawIsKept : Prop :=
  ∀ s s' : State, GeometryLaw s → SupervisorLaw s → RecordLaw s → AccountLaw s → step s = .next s' → AccountLaw s'

/-- The laws hold right after reset. -/
def Obligations.LawsHoldAtReset : Prop :=
  QueueLaw .reset ∧ SupervisorLaw .reset ∧ GeometryLaw .reset ∧ CounterLaw .reset ∧ HoldLaw .reset ∧ RecordLaw .reset
    ∧ AccountLaw .reset

/-! ### Resets -/

/-- R142: a full reset's condition holds the engine with its lines inactive and records its cause; one that comes while it is
held changes nothing. While it is held the engine takes no frame, no edge and no timer; that the JAM level is followed then
is the model's choice (log 28). -/
def Obligations.FullResetHoldsEngine : Prop :=
  (∀ (s : State) (c : Instr) (cause : ResetCause),
    (c, cause) ∈ [(Instr.powerOn, ResetCause.powerOn), (.supplyLow, .supplyLow), (.external, .external)] →
    (s.held = true → exec c s = .next s) ∧
    (s.held = false → Completes (exec c s) fun t =>
      t.held = true ∧ t.sup.resetCause = cause ∧ t.lrx.hold = false ∧ t.attn = false ∧ t.ltx.txd = .idle (8 * t.now)
        ∧ ∀ n : Fin 16, t.ej n = false)) ∧
  (∀ (c : Instr) (s : State), s.held = true → (∀ r1 r0 a1 a0, c ≠ .resetHoldEnd r1 r0 a1 a0) →
    Completes (exec c s) fun t => t = { s with jam := t.jam })

/-- R144, R27, R53, R108, R184, and the ninth section of chapter 9: the state that the end of a full reset leaves. -/
def Obligations.ResetHoldEndsInResetState : Prop :=
  ∀ (s : State) (rate1 rate0 : Bool) (addr1 addr0 : StrapLevel), s.held = true →
    Completes (exec (.resetHoldEnd rate1 rate0 addr1 addr0) s) fun t =>
      t.held = false
        ∧ t.rate = BitRate.ofStraps rate1 rate0 ∧ t.lrx.nodeAddress = addressOfStraps addr1 addr0
        ∧ t.sup = { engine := .unconfigured, returnState := none, clearance := none, faults := .empty, lotId := none,
                    present := 0, unaccounted := 0, recovered := 0, strays := 0, lastDiscard := none,
                    resetCause := s.sup.resetCause }
        ∧ t.tracker.ring = [] ∧ t.tracker.stack = [] ∧ t.tracker.loadPocket = none ∧ t.tracker.nextSeq = none
        ∧ t.tracker.checkTimer = none
        ∧ (∀ n : Fin 16, t.outlets[n] = { state := .disabled, committed := 0, reserved := 0, lotTotal := 0, missRun := 0,
                                           queue := [], slot := .free, drive := .quiet })
        ∧ t.tables = { active := none, staged := .absent, check := 0xFFFF }
        ∧ t.lrx.assembler = .hunt ∧ t.lrx.gapTimer = none ∧ t.lrx.inbound = [] ∧ t.lrx.urgent = [] ∧ t.lrx.hold = false
        ∧ t.ltx.outbound = [{ tag := 0, body := .notice .start s.sup.resetCause.code, flags := some 0x08 }]
        ∧ t.ltx.reject = false ∧ t.ltx.overrun = false ∧ t.ltx.lost = false
        ∧ t.pendingWord = 1 ∧ t.maskWord = 0 ∧ t.attn = true
        ∧ (∀ i : Fin 11, t.notices[i] =
            { pending := decide (i = 0), masked := false, owed := false, detail := if i = 0 then s.sup.resetCause.code else 0 })

/-- R143, R171: what a CORE_RESET keeps and what it resets. With TXD idle START begins at once; a frame on TXD ends with the
character in progress, and START waits for that. Which character is in progress at the instant of the reset is the model's
reckoning from the start of the frame (log 15). -/
def Obligations.CoreResetKeepsTables : Prop :=
  ∀ s : State, s.held = false →
    Completes (exec .coreReset s) fun t =>
      t.tables = { active := s.tables.active, staged := s.tables.active.getD .absent, check := 0xFFFF }
        ∧ t.rate = s.rate ∧ t.lrx.nodeAddress = s.lrx.nodeAddress
        ∧ t.sup = { engine := if s.tables.active.isSome then .ready else .unconfigured, returnState := none,
                    clearance := none, faults := .empty, lotId := none, present := 0, unaccounted := 0, recovered := 0,
                    strays := 0, lastDiscard := none, resetCause := .link }
        ∧ t.tracker.ring = [] ∧ t.tracker.stack = [] ∧ t.tracker.loadPocket = none ∧ t.tracker.nextSeq = none
        ∧ t.tracker.checkTimer = none
        ∧ (∀ (n : Fin 16) (e : OutletEntry), s.outletEntry n = some e →
            t.outlets[n] = { state := if e.capacity ≤ s.outlets[n].committed then .full else .open,
                             committed := s.outlets[n].committed, reserved := 0, lotTotal := 0, missRun := 0, queue := [],
                             slot := .free, drive := .quiet })
        ∧ (∀ n : Fin 16, s.outletEntry n = none → t.outlets[n] = .afterReset)
        ∧ t.lrx.inbound = [] ∧ t.lrx.urgent = [] ∧ t.lrx.hold = false ∧ t.lrx.assembler = .hunt ∧ t.lrx.gapTimer = none
        ∧ (∀ since, s.ltx.txd = .idle since →
            t.ltx.outbound = [{ tag := 0, body := .notice .start 3, flags := some 0x08 }]
              ∧ t.ltx.txd = .sending (max (8 * s.now) since) (max (8 * s.now) since + 12 * s.rate.charTicks))
        ∧ (∀ began ends, s.ltx.txd = .sending began ends →
            t.ltx.outbound = [{ tag := 0, body := .notice .start 3, flags := none }]
              ∧ t.ltx.txd = .cut
                  (min ends (began + ((8 * s.now - began) / s.rate.charTicks + 1) * s.rate.charTicks)))
        ∧ (∀ ends, s.ltx.txd = .cut ends →
            t.ltx.outbound = [{ tag := 0, body := .notice .start 3, flags := none }] ∧ t.ltx.txd = .cut ends)
        ∧ t.ltx.reject = false ∧ t.ltx.overrun = false ∧ t.ltx.lost = false
        ∧ t.pendingWord = 1 ∧ t.maskWord = 0 ∧ t.attn = true
        ∧ (∀ i : Fin 11, t.notices[i] =
            { pending := decide (i = 0), masked := false, owed := false, detail := if i = 0 then 3 else 0 })

/-! ### HALT and JAM -/

/-- R141, R166, R135, R136: HALT takes effect at once in each kind of engine state, whether its reply is admitted, waits in
the urgent reply list, or is not kept and sets OVERRUN. -/
def Obligations.HaltTakesEffectAtOnce : Prop :=
  ∀ (tag : Byte) (s : State), s.held = false →
    EndsOnLine (exec (.halt tag) s) fun u =>
      ∃ reply : OutFrame,
        reply = { tag := tag, body := .reply 0x50 (if s.lotOpen then .done else .refusedState) [], flags := none }
        ∧ (s.ltx.outbound.length < 32 → s.lrx.urgent = [] →
            u.ltx = { s.ltx with outbound := s.ltx.outbound ++ [reply] } ∧ u.lrx = s.lrx)
        ∧ (32 ≤ s.ltx.outbound.length ∨ s.lrx.urgent ≠ [] → s.lrx.urgent.length < 4 →
            u.ltx = s.ltx ∧ u.lrx = { s.lrx with urgent := s.lrx.urgent ++ [reply] })
        ∧ (32 ≤ s.ltx.outbound.length ∨ s.lrx.urgent ≠ [] → 4 ≤ s.lrx.urgent.length →
            u.ltx = { s.ltx with overrun := true } ∧ u.lrx = s.lrx)
        ∧ u.tracker = s.tracker ∧ u.tables = s.tables ∧ u.now = s.now
        ∧ (s.lotOpen = false → u.sup = s.sup ∧ u.outlets = s.outlets ∧ u.notices = s.notices)
        ∧ (s.sup.engine = .halted → u.outlets = s.outlets ∧ u.notices = s.notices
            ∧ u.sup.engine = .halted ∧ u.sup.returnState = s.sup.returnState
            ∧ u.sup.faults.first = s.sup.faults.first
            ∧ (s.sup.faults.later.length < 4 → u.sup.faults.overflow = s.sup.faults.overflow
                ∧ u.sup.faults.later =
                    s.sup.faults.later ++ [{ code := .haltRequest, loadPocket := s.faultPocket, seq := none }])
            ∧ (4 ≤ s.sup.faults.later.length → u.sup.faults.overflow = true
                ∧ u.sup.faults.later = s.sup.faults.later))
        ∧ (s.firesAllowed = true → u.sup.engine = .halted
            ∧ u.sup.faults.first = some { code := .haltRequest, loadPocket := s.faultPocket, seq := none }
            ∧ u.sup.returnState = (if s.sup.engine = .sorting then some .sorting else some .clearing)
            ∧ (∀ n : Fin 16, u.outlets[n] = { s.outlets[n] with slot := .free })
            ∧ u.notices[(1 : Fin 11)] = s.notices[(1 : Fin 11)].raised 1)

/-- R140: a rising edge on JAM raises notice JAM with the engine state as its detail, and in a lot state fault JAM;
a falling edge changes the level alone (and the time base, log 1). -/
def Obligations.JamEdgesAreTaken : Prop :=
  ∀ (time : Nat) (s : State), s.held = false →
    exec (.jamFall time) s = .next { s with jam := false, now := max s.now time } ∧
    EndsOnLine (exec (.jamRise time) s) fun u =>
      u.jam = true ∧ u.now = max s.now time ∧ u.tracker = s.tracker ∧ u.ltx = s.ltx
        ∧ u.notices[(9 : Fin 11)] = s.notices[(9 : Fin 11)].raised s.sup.engine.code
        ∧ (s.lotOpen = false → u.sup = s.sup ∧ u.outlets = s.outlets)
        ∧ (s.firesAllowed = true → u.sup.engine = .halted
            ∧ u.sup.faults.first = some { code := .jam, loadPocket := s.faultPocket, seq := none }
            ∧ u.sup.returnState = (if s.sup.engine = .sorting then some .sorting else some .clearing)
            ∧ (∀ n : Fin 16, u.outlets[n] = { s.outlets[n] with slot := .free })
            ∧ u.notices[(1 : Fin 11)] = s.notices[(1 : Fin 11)].raised 0)
        ∧ (s.sup.engine = .halted → u.outlets = s.outlets
            ∧ u.sup.engine = .halted ∧ u.sup.returnState = s.sup.returnState
            ∧ u.sup.faults = s.sup.faults.append { code := .jam, loadPocket := s.faultPocket, seq := none })

/-! ### The dial -/

/-- R10, R20, R65, R77: INDEX edges in UNCONFIGURED and READY, and an ACK without a strobe, without a lot or on a DISABLED
outlet, change nothing (that the time base follows the edge is the model's choice, log 1). -/
def Obligations.IdleEdgesAreIgnored : Prop :=
  ∀ (time : Nat) (s : State), s.held = false →
    (∀ home, s.lotOpen = false → exec (.forwardIndex time home) s = .next { s with now := max s.now time }) ∧
    (s.lotOpen = false → exec (.reverseIndex time) s = .next { s with now := max s.now time }) ∧
    (∀ n : Fin 16,
      (∀ expires claim, s.outlets[n].drive ≠ .strobe expires claim) ∨ s.lotOpen = false ∨ s.outlets[n].state = .disabled →
      exec (.ack time n) s = .next { s with now := max s.now time })

/-- R99: an index that cancels a pending check sample makes a record that is not EMPTY, GONE, LOST or VOID RETAINED and
raises SWEEP_UNCHECKED; a DECIDED record is released, and a FIRING one's entry (found by its name, log 25) is removed as a
miss. That a miss run above its limit faults the outlet too is the model's reading (log 20). -/
def Obligations.CancelledSampleIsUnchecked : Prop :=
  ∀ s : State,
    (s.tracker.checkTimer = none → cancelCheck s = s) ∧
    (∀ (expires : Nat) (r : PocketRecord), s.tracker.checkTimer = some expires → s.tracker.ring[s.z]? = some r →
      (r.phase ∈ [Phase.empty, .gone, .lost, .void] →
        cancelCheck s = { s with tracker := { s.tracker with checkTimer := none } }) ∧
      (r.phase ∉ [Phase.empty, .gone, .lost, .void] → ∃ u, cancelCheck s = u
        ∧ u.tracker.checkTimer = none ∧ u.tracker.stack = s.tracker.stack
        ∧ u.tracker.ring[s.z]? = some { r with phase := .retained, target := none }
        ∧ (r.phase ≠ .firing → ∀ k, k ≠ s.z → u.tracker.ring[k]? = s.tracker.ring[k]?)
        ∧ u.sup = (raiseFault .sweepUnchecked s.faultPocket r.seq s).sup
        ∧ (r.phase ≠ .firing → ReleasedWithFault s u r)
        ∧ (∀ n, r.phase = .firing → s.entryOutlet r.name = some n →
            MissTaken s u n (s.outlets[n].queue.eraseP fun e => e.name == r.name))
        ∧ u.ltx = s.ltx ∧ u.tables = s.tables ∧ u.lrx = s.lrx ∧ u.now = s.now))

/-- R8, R10 to R13, R19: a forward index runs its parts in order. The ring moves up: every record moves one offset up, the
record at Z goes onto the stack, a RETAINED one as LOST and booked when counted (R11), a record is made at offset 0, OPEN or,
when the lot is clearing, VOID (R12); load_pocket advances or lets HOME correct it, and the check delay starts. -/
def Obligations.ForwardIndexMovesRingUp : Prop :=
  ∀ (time : Nat) (home : Bool) (s v m u : State), s.held = false → s.lotOpen = true →
    v = cancelCheck { s with now := max s.now time } → m = moveUp v →
    u = startCheckTimer (arrivals (passes (deadlines (compareHome home m)))) →
    exec (.forwardIndex time home) s = .next (finishLine (countForward u)) ∧
    (∀ r, v.tracker.ring[v.z]? = some r →
      (∃ ident, m.tracker.ring = PocketRecord.fresh v.tracker.issue ident (if v.isClearing then .void else .open)
          :: v.tracker.ring.take v.z)
        ∧ m.tracker.stack =
            ((if r.phase = .retained then { r with phase := .lost, target := none } else r) :: v.tracker.stack).take 8
        ∧ m.tracker.loadPocket = v.tracker.loadPocket.map (fun p => (p + 1) % s.dial.pockets)
        ∧ Books v m (decide (r.phase = .retained) && r.counted) (v.pocketAt v.z) (v.unaccountedReport r (v.pocketAt v.z))
        ∧ m.outlets = v.outlets ∧ m.lrx = v.lrx ∧ m.tables = v.tables ∧ m.now = v.now) ∧
    (∀ p, s.tracker.ring.length = s.z + 1 → s.tracker.loadPocket = some p →
      u.tracker.ring.length = s.z + 1
        ∧ (∀ k, k < s.z → (u.tracker.ring[k + 1]?).map PocketRecord.seq = (s.tracker.ring[k]?).map PocketRecord.seq)
        ∧ (u.tracker.ring[0]?).map PocketRecord.seq = some s.tracker.issue
        ∧ (u.tracker.stack[0]?).map PocketRecord.seq = (s.tracker.ring[s.z]?).map PocketRecord.seq
        ∧ u.tracker.stack.tail = s.tracker.stack.take 7
        ∧ u.tracker.nextSeq = s.tracker.nextSeq.map (fun q => min (q + 1) 4294967296)
        ∧ u.tracker.loadPocket =
            some (if home = decide ((p + 1) % s.dial.pockets = 0) then (p + 1) % s.dial.pockets else 0)
        ∧ u.tracker.checkTimer = some (max s.now time + s.dial.checkDelay)
        ∧ u.now = max s.now time ∧ u.tables = s.tables ∧ u.lrx = s.lrx)

/-- R13: HOME that agrees with load_pocket changes nothing; a mismatch raises HOME_MISMATCH with the load pocket it finds,
sets load_pocket to 0, releases and strands the counted HELD and DECIDED records and makes the OPEN ones VOID. That an
uncounted HELD or DECIDED record stays as it is, with its reservation, is the model's reading (log 23). -/
def Obligations.HomeMismatchSuspectsRing : Prop :=
  ∀ (home : Bool) (s u : State), u = compareHome home s →
    (home = decide (s.tracker.loadPocket = some 0) → u = s) ∧
    (home ≠ decide (s.tracker.loadPocket = some 0) →
      u.tracker.loadPocket = some 0
        ∧ u.sup = (raiseFault .homeMismatch s.faultPocket none s).sup
        ∧ u.tracker.ring.length = s.tracker.ring.length
        ∧ (∀ (k : Nat) (r : PocketRecord), s.tracker.ring[k]? = some r →
            ((r.phase = .held ∨ r.phase = .decided) → r.counted = true →
              u.tracker.ring[k]? = some { r with phase := .stranded, reason := some .trackSuspect, target := none }) ∧
            (r.phase = .open → u.tracker.ring[k]? = some { r with phase := .void, reason := some .trackSuspect }) ∧
            (r.phase ∉ [Phase.held, .decided, .open] ∨ (r.phase ≠ .open ∧ r.counted = false) →
              u.tracker.ring[k]? = some r))
        ∧ (∀ n : Fin 16, u.outlets[n] = { s.outlets[n].forgetAll s.countedDecided with
            slot := if s.firesAllowed then .free else (s.outlets[n].forgetAll s.countedDecided).slot
            reserved := s.outlets[n].reserved - (s.tracker.ring.filter fun r => r.counted && r.decidedFor n).length })
        ∧ u.tracker.stack = s.tracker.stack ∧ u.tracker.nextSeq = s.tracker.nextSeq ∧ u.ltx = s.ltx ∧ u.lrx = s.lrx
        ∧ u.tables = s.tables ∧ u.now = s.now)

/-- R14, R15, R48: the deadlines of the enabled stations. An OPEN record at the contact deadline becomes VOID; a HELD one at
the value or recheck deadline without that station's result is decided for RETEST from there. The contact deadline comes
first and of two verdicts the one at the higher offset. -/
def Obligations.DeadlinesDecideLateRecords : Prop :=
  (∀ s : State, deadlines s = verdictDeadline .value (verdictDeadline .recheck (contactDeadline s))) ∧
  (∀ (s : State) (e : StationEntry) (r : PocketRecord), s.station .contact = some e →
    s.tracker.ring[e.offset + e.allowance + 1]? = some r →
    (r.phase = .open → contactDeadline s = { s with tracker := { s.tracker with
      ring := s.tracker.ring.set (e.offset + e.allowance + 1) { r with phase := .void, reason := some .late } } }) ∧
    (r.phase ≠ .open → contactDeadline s = s)) ∧
  (∀ (s : State) (st : Station) (e : StationEntry) (r : PocketRecord), s.station st = some e →
    s.tracker.ring[e.offset + e.allowance + 1]? = some r →
    (r.phase = .held → (∀ x ∈ r.results, x.station ≠ st) → ∃ u, verdictDeadline st s = u
      ∧ s.decides u (e.offset + e.allowance + 1) r .retest .late
      ∧ u.sup = s.sup ∧ u.notices = s.notices ∧ u.ltx = s.ltx ∧ u.lrx = s.lrx ∧ u.tables = s.tables ∧ u.now = s.now) ∧
    (r.phase ≠ .held ∨ (∃ x ∈ r.results, x.station = st) → verdictDeadline st s = s)) ∧
  (∀ (s : State) (st : Station), s.station st = none → verdictDeadline st s = s)

/-- R16, R78: a DECIDED record that has just left its target outlet's offset is stranded for FIRE_CANCELLED and released
once, its strobe claim withdrawn; every slot in DELAY or DUE ends. -/
def Obligations.PassesStrandAndRelease : Prop :=
  ∀ s u : State, u = passes s →
    (∀ (n : Fin 16) (e : OutletEntry) (r : PocketRecord), s.outletEntry n = some e →
      s.tracker.ring[e.offset + 1]? = some r → r.phase = .decided → r.target.map Route.outlet = some n →
      u.tracker.ring[e.offset + 1]? = some { r with phase := .stranded, reason := some .fireCancelled, target := none }
        ∧ u.outlets[n].reserved = s.outlets[n].reserved - 1) ∧
    (∀ (k : Nat) (r : PocketRecord), s.tracker.ring[k]? = some r →
      (r.phase ≠ .decided ∨ ∀ t e, r.target = some t → s.outletEntry t.outlet = some e → e.offset + 1 ≠ k) →
      u.tracker.ring[k]? = some r) ∧
    (∀ n : Fin 16, (∀ e r, s.outletEntry n = some e → s.tracker.ring[e.offset + 1]? = some r →
        r.phase ≠ .decided ∨ r.target.map Route.outlet ≠ some n) →
      u.outlets[n].reserved = s.outlets[n].reserved) ∧
    (∀ n : Fin 16, u.outlets[n] =
      { s.outlets[n].forgetAll s.passing with slot := .free, reserved := u.outlets[n].reserved }) ∧
    u.tracker.stack = s.tracker.stack ∧ u.tracker.ring.length = s.tracker.ring.length ∧ u.sup = s.sup
      ∧ u.notices = s.notices ∧ u.ltx = s.ltx ∧ u.lrx = s.lrx ∧ u.tables = s.tables ∧ u.now = s.now

/-- R17, R18, R70, R91: each outlet in turn is handed the record that stands at its offset. A DECIDED record for it starts
the fire delay in SORTING and CLEARING, or is stranded when the outlet is FAULTED; the sweep outlet starts it for a DECIDED
record of its own, a STRANDED and a VOID one; nothing starts in HALTED or for the record that the outlet's strobe claims. -/
def Obligations.ArrivalsStartFireDelay : Prop :=
  (∀ s : State, arrivals s = (List.finRange 16).foldl (fun s n => handOff n s) s) ∧
  (∀ (n : Fin 16) (s : State) (e : OutletEntry) (r : PocketRecord), s.outletEntry n = some e →
    s.tracker.ring[e.offset]? = some r → s.outlets[n].drive.claim ≠ some r.name →
    (s.firesAllowed = true →
      (e.sweep = false ∧ r.decidedFor n = true ∧ (s.outlets[n].state = .open ∨ s.outlets[n].state = .full)) ∨
        (e.sweep = true ∧ (r.decidedFor n = true ∨ r.phase = .stranded ∨ r.phase = .void)) →
      (e.fireDelay ≠ 0 → handOff n s = { s with outlets := s.outlets.set n { s.outlets[n] with
        slot := .delay r.name (s.now + e.fireDelay) } }) ∧
      (e.fireDelay = 0 → handOff n s = fireTests n r.name s)) ∧
    (s.firesAllowed = true → e.sweep = false → r.decidedFor n = true → s.outlets[n].state = .faulted →
      ∃ u, handOff n s = u
        ∧ u.tracker = { s.tracker with
            ring := s.tracker.ring.set e.offset { r with
              phase := .stranded, reason := some .outletFaulted, target := none } }
        ∧ ReleasedOnly s u r ∧ u.sup = s.sup ∧ u.notices = s.notices ∧ u.ltx = s.ltx) ∧
    (s.firesAllowed = false ∨
        (r.decidedFor n = false ∧ (e.sweep = false ∨ r.phase ∉ [Phase.stranded, .void])) → handOff n s = s)) ∧
  (∀ (n : Fin 16) (s : State),
    (s.outletEntry n = none ∨ ∃ e r, s.outletEntry n = some e ∧ s.tracker.ring[e.offset]? = some r
      ∧ s.outlets[n].drive.claim = some r.name) → handOff n s = s)

/-- R9, R20, R21: a reverse index moves every record one offset down, discards the one at offset 0 (a DECIDED one is
released, a counted HELD, DECIDED, STRANDED or RETAINED one booked, its report naming its target, log 19), pops the stack
into Z or makes a VOID record with TRACK_GAP, steps load_pocket back and ends every slot; it starts no check delay. -/
def Obligations.ReverseIndexMovesRingDown : Prop :=
  ∀ (time : Nat) (s v : State) (p : Nat),
    s.held = false → s.lotOpen = true → s.tracker.ring.length = s.z + 1 → s.tracker.loadPocket = some p →
    v = cancelCheck { s with now := max s.now time } →
    EndsEvent (exec (.reverseIndex time) s) fun w => ∃ u, w = countIndex (-1) u
        ∧ u.tracker.ring.length = s.z + 1
        ∧ (∀ k, k < s.z → u.tracker.ring[k]? = v.tracker.ring[k + 1]?)
        ∧ (∀ k, k < s.z → (u.tracker.ring[k]?).map PocketRecord.seq = (s.tracker.ring[k + 1]?).map PocketRecord.seq)
        ∧ (∀ r, v.tracker.ring[0]? = some r →
            Books v u (r.counted && (r.phase ∈ [Phase.held, .decided, .stranded, .retained])) (v.pocketAt 0)
                (v.unaccountedReport r (v.pocketAt 0))
              ∧ ∀ n : Fin 16, u.outlets[n] = { v.outlets[n].released r n with slot := .free })
        ∧ (∀ r rest, s.tracker.stack = r :: rest → u.tracker.ring[s.z]? = some r ∧ u.tracker.stack = rest)
        ∧ (s.tracker.stack = [] → u.tracker.stack = []
            ∧ (u.tracker.ring[s.z]?).map (fun r => (r.phase, r.seq, r.counted, r.checked)) = some (.void, none, false, false)
            ∧ u.notices[(6 : Fin 11)] = s.notices[(6 : Fin 11)].raised (u.pocketAt s.z))
        ∧ u.tracker.loadPocket = some (((p : Int) - 1) % (s.dial.pockets : Int)).toNat
        ∧ u.tracker.nextSeq = s.tracker.nextSeq ∧ u.tracker.checkTimer = none
        ∧ (∀ n : Fin 16, u.outlets[n].slot = .free)
        ∧ u.now = max s.now time ∧ u.tables = s.tables ∧ u.lrx = s.lrx

/-- R149 to R151, R153, R154: an index counts while the lot is clearing, between -65,535 and 65,535; a forward index raises
RUN_OUT_EXCEEDED exactly when the count reaches 2 × (Z+1) with the run-out incomplete. The stage tests: a RUN_OUT without an
OPEN or a counted standing record becomes SETTLE, a SETTLE without entries and counted standing records SUMMARY, and SUMMARY
closes the lot at once in CLEARING with a place in the outbound queue, or goes back to SETTLE when an entry or such a record
has come. That each event ends with these tests is the model's reading (log 24). -/
def Obligations.ClearanceCountsAndAdvances : Prop :=
  (∀ (s : State) (by_ : Int), (s.sup.clearance = none → countIndex by_ s = s) ∧
    ∀ c, s.sup.clearance = some c → countIndex by_ s = { s with sup := { s.sup with
      clearance := some { c with count := max (-65535) (min 65535 (c.count + by_)) } } }) ∧
  (∀ (s : State) (c : Clearance), s.sup.clearance = some c → c.stage = .runOut → s.runOutComplete = false →
    (c.count + 1 = 2 * ((s.z : Int) + 1) →
      countForward s = raiseFault .runOutExceeded s.faultPocket none (countIndex 1 s)) ∧
    (c.count + 1 ≠ 2 * ((s.z : Int) + 1) → countForward s = countIndex 1 s)) ∧
  (∀ s : State, s.stage ≠ some .runOut ∨ s.runOutComplete = true →
    countForward s = advanceClearance (countIndex 1 s)) ∧
  (∀ s : State, (s.runOutComplete = true ↔ ∀ r ∈ s.tracker.ring, r.phase ≠ .open ∧
      (r.counted = true → r.phase ∉ [Phase.held, .decided, .stranded, .retained])) ∧
    (s.settleComplete = true ↔ (∀ n : Fin 16, s.outlets[n].queue = []) ∧ ∀ r ∈ s.tracker.ring,
      r.counted = true → r.phase ∉ [Phase.held, .decided, .stranded, .retained])) ∧
  (∀ s : State, s.sup.clearance = none → advanceClearance s = s) ∧
  (∀ (s : State) (c : Clearance) (inStage : Stage → State), s.sup.clearance = some c →
    (inStage = fun stage => { s with sup := { s.sup with clearance := some { c with stage := stage } } }) →
    (c.stage = .runOut → s.runOutComplete = false → advanceClearance s = s) ∧
    (c.stage = .runOut ∧ s.runOutComplete = true ∨ c.stage = .settle ∨ c.stage = .summary →
      (s.settleComplete = false → advanceClearance s = inStage .settle) ∧
      (s.settleComplete = true → s.sup.engine = .clearing → s.ltx.outbound.length < 32 →
        advanceClearance s = closeLot c.kind.endKind (inStage .summary)) ∧
      (s.settleComplete = true → s.sup.engine ≠ .clearing ∨ 32 ≤ s.ltx.outbound.length →
        advanceClearance s = inStage .summary)))

/-- R96, R100: a sample that finds CHECK inactive. -/
def Obligations.CheckSampleFindsPocketClear : Prop :=
  ∀ (s : State) (expires : Nat) (r : PocketRecord),
    s.held = false → s.lotOpen = true → s.tracker.checkTimer = some expires → s.tracker.ring[s.z]? = some r →
    EndsEvent (exec (.checkSample false) s) fun u =>
      u.tracker.checkTimer = none
        ∧ u.tracker.ring[s.z]? = some
            (if r.phase ∈ [Phase.held, .decided, .stranded, .retained] then
              { r with checked := true, phase := clearPhase r.counted r.phase, target := none }
            else { r with checked := true })
        ∧ (∀ k, k ≠ s.z → u.tracker.ring[k]? = s.tracker.ring[k]?) ∧ u.tracker.stack = s.tracker.stack
        ∧ Books s u (r.counted && (r.phase ∈ [Phase.held, .decided, .stranded, .retained])) (s.pocketAt s.z)
            (s.unaccountedReport r (s.pocketAt s.z))
        ∧ ReleasedOnly s u r
        ∧ u.tables = s.tables ∧ u.lrx = s.lrx

/-- R96 to R98: a sample that finds a part makes the record RETAINED and raises PART_RETAINED, unless it was RETAINED. The
entry of a FIRING record (found by its name, log 25) is removed as a miss wherever it stands in its queue; that a miss run
above its limit faults the outlet too is the model's reading (log 20). -/
def Obligations.CheckSampleFindsPart : Prop :=
  ∀ (s : State) (expires : Nat) (r : PocketRecord),
    s.held = false → s.lotOpen = true → s.tracker.checkTimer = some expires → s.tracker.ring[s.z]? = some r →
    EndsEvent (exec (.checkSample true) s) fun u =>
      u.tracker.checkTimer = none
        ∧ u.tracker.ring[s.z]? = some (if r.phase = .retained then { r with checked := true }
            else { r with checked := true, phase := .retained, target := none, counted := r.counted && keepsCounted r.phase })
        ∧ (r.phase ≠ .firing → ∀ k, k ≠ s.z → u.tracker.ring[k]? = s.tracker.ring[k]?)
        ∧ u.sup = (if r.phase = .retained then s.sup else (raiseFault .partRetained s.faultPocket r.seq s).sup)
        ∧ (r.phase = .retained → ReleasedOnly s u r) ∧ (r.phase ∉ [Phase.retained, .firing] → ReleasedWithFault s u r)
        ∧ (∀ n, r.phase = .firing → s.entryOutlet r.name = some n →
            MissTaken s u n (s.outlets[n].queue.eraseP fun e => e.name == r.name)
              ∧ (¬ s.missFaults n ∨ s.outlets[n].slot = .free → ∀ k, k ≠ s.z → u.tracker.ring[k]? = s.tracker.ring[k]?))
        ∧ u.tracker.stack = s.tracker.stack ∧ u.ltx = s.ltx ∧ u.tables = s.tables ∧ u.lrx = s.lrx

/-! ### Fires and drops -/

/-- R71, R73, R75, R92: a fire delay that expires with room and a quiet drive. In PULSE mode the pulse begins, the entry is
recorded and the record is FIRING; the sweep outlet's fire for a STRANDED or VOID record takes its reservation. In GATED mode
the strobe begins with its ack timer and holds the claim; the record stays. That the time base moves to the deadline is the
model's choice (log 2). -/
def Obligations.FireDelayBeginsFire : Prop :=
  (∀ (n : Fin 16) (s : State) (name : RecordName) (expires k : Nat) (e : OutletEntry) (r : PocketRecord) (route : Route),
    s.held = false → s.firesAllowed = true → s.outlets[n].slot = .delay name expires → s.outlets[n].drive = .quiet →
    s.outlets[n].queue.length < 4 → s.outletEntry n = some e → e.mode = .pulse →
    s.ringOffset name = some k → s.tracker.ring[k]? = some r →
    (r.phase = .decided ∧ r.target = some route) ∨
      ((r.phase = .stranded ∨ r.phase = .void) ∧ route = { outlet := n, hops := 5 }) →
    exec (.fireDelayExpiry n) s = .next (finishEvent { s with
      now := max s.now expires
      outlets := s.outlets.set n { s.outlets[n] with
        slot := .free
        drive := .pulse (max s.now expires + e.pulseWidth)
        reserved := if r.phase = .decided then s.outlets[n].reserved else s.outlets[n].reserved + 1
        queue := s.outlets[n].queue ++ [{ name := r.name, counted := r.counted, fireTime := max s.now expires,
                                          pocket := s.pocketAt k, finalClass := r.finalClass, reason := r.reason,
                                          hops := route.hops, deviation := r.deviation, drift := r.drift }] }
      tracker := { s.tracker with ring := s.tracker.ring.set k { r with phase := .firing, target := some route } } })) ∧
  (∀ (n : Fin 16) (s : State) (name : RecordName) (expires k : Nat) (e : OutletEntry) (r : PocketRecord),
    s.held = false → s.firesAllowed = true → s.outlets[n].slot = .delay name expires → s.outlets[n].drive = .quiet →
    s.outlets[n].queue.length < 4 → s.outletEntry n = some e → e.mode = .gated →
    s.ringOffset name = some k → s.tracker.ring[k]? = some r → r.phase = .decided →
    exec (.fireDelayExpiry n) s = .next (finishEvent { s with
      now := max s.now expires
      outlets := s.outlets.set n { s.outlets[n] with
        slot := .free, drive := .strobe (max s.now expires + e.ackLimit) (some name) } }))

/-- R71 tests 1 and 2: a full confirmation queue strands the record for BACKLOG and releases its reservation; a busy drive
makes the slot DUE. That the time base moves to the deadline is the model's choice (log 2). -/
def Obligations.FireDelayBacklogAndDue : Prop :=
  ∀ (n : Fin 16) (s : State) (name : RecordName) (expires : Nat),
    s.held = false → s.firesAllowed = true → s.outlets[n].slot = .delay name expires →
    (s.outlets[n].queue.length < 4 → s.outlets[n].drive ≠ .quiet →
      exec (.fireDelayExpiry n) s = .next (finishEvent { s with
        now := max s.now expires, outlets := s.outlets.set n { s.outlets[n] with slot := .due name } })) ∧
    (∀ (k : Nat) (r : PocketRecord), 4 ≤ s.outlets[n].queue.length → s.ringOffset name = some k →
      s.tracker.ring[k]? = some r → r.phase = .decided ∨ r.phase = .stranded ∨ r.phase = .void →
      EndsEvent (exec (.fireDelayExpiry n) s) fun u =>
        u.tracker = { s.tracker with
              ring := s.tracker.ring.set k { r with phase := .stranded, reason := some .backlog, target := none } }
          ∧ u.outlets[n].slot = .free
          ∧ (∀ m : Fin 16, u.outlets[m] = Outlet.released
              { s.outlets[m] with slot := if m = n then .free else s.outlets[m].slot } r m)
          ∧ u.sup = s.sup ∧ u.now = max s.now expires)

/-- R74: at the pulse timer's expiry the drive goes to QUIET, and a DUE slot is tested again at once, where fires may begin.
That the time base moves to the deadline then is the model's choice (log 2). -/
def Obligations.PulseEndQuietsDrive : Prop :=
  ∀ (n : Fin 16) (s : State) (ends : Nat), s.held = false → s.outlets[n].drive = .pulse ends →
    ((∀ name, s.outlets[n].slot ≠ .due name) ∨ s.firesAllowed = false →
      exec (.pulseEnd n) s = .next (finishEvent { s with
        now := max s.now ends, outlets := s.outlets.set n { s.outlets[n] with drive := .quiet } })) ∧
    (∀ name, s.outlets[n].slot = .due name → s.firesAllowed = true →
      exec (.pulseEnd n) s = .next (finishEvent (fireTests n name { s with
        now := max s.now ends, outlets := s.outlets.set n { s.outlets[n] with drive := .quiet } })))

/-- R75: an ACK whose claim stands records the fire with the ACK time and makes the record FIRING; one whose claim has been
withdrawn changes no record and no counter. Either quiets the drive, and then a DUE slot is put to the tests of R71 again,
where fires may begin (R72). -/
def Obligations.AckRecordsFire : Prop :=
  ∀ (time : Nat) (n : Fin 16) (s v : State) (expires : Nat),
    s.held = false → s.lotOpen = true → s.outlets[n].state ≠ .disabled →
    (∃ (name : RecordName) (k : Nat) (r : PocketRecord) (route : Route),
      s.outlets[n].drive = .strobe expires (some name) ∧ s.ringOffset name = some k ∧ s.tracker.ring[k]? = some r
        ∧ r.phase = .decided ∧ r.target = some route
        ∧ v = { s with
          now := max s.now time
          outlets := s.outlets.set n { s.outlets[n] with
            drive := .quiet
            queue := s.outlets[n].queue ++ [{ name := r.name, counted := r.counted, fireTime := max s.now time,
                                              pocket := s.pocketAt k, finalClass := r.finalClass, reason := r.reason,
                                              hops := route.hops, deviation := r.deviation, drift := r.drift }] }
          tracker := { s.tracker with ring := s.tracker.ring.set k { r with phase := .firing } } }) ∨
      (s.outlets[n].drive = .strobe expires none ∧ v = { s with
        now := max s.now time, outlets := s.outlets.set n { s.outlets[n] with drive := .quiet } }) →
    ((∀ name, s.outlets[n].slot ≠ .due name) ∨ s.firesAllowed = false →
      exec (.ack time n) s = .next (finishEvent v)) ∧
    (∀ name, s.outlets[n].slot = .due name → s.firesAllowed = true →
      exec (.ack time n) s = .next (finishEvent (fireTests n name v)))

/-- R76, R81: an ack limit that expires faults the outlet, quiets its drive, frees its slot and strands the records that the
claim and the slot still hold, each releasing its reservation once. Nothing else of any outlet changes but the slots and
claims that held these records. That the time base moves to the deadline is the model's choice (log 2). -/
def Obligations.AckLimitFaultsOutlet : Prop :=
  ∀ (n : Fin 16) (s : State) (expires : Nat) (claim : Option RecordName),
    s.held = false → s.outlets[n].drive = .strobe expires claim →
    EndsEvent (exec (.ackLimitExpiry n) s) fun u =>
      u.outlets[n] = { s.outlets[n] with
          state := .faulted, drive := .quiet, slot := .free, reserved := u.outlets[n].reserved }
        ∧ (s.outlets[n].state ≠ .faulted →
            u.notices[(3 : Fin 11)] = s.notices[(3 : Fin 11)].raised n.val)
        ∧ (s.outlets[n].state = .faulted → u.notices = s.notices)
        ∧ (∀ (name : RecordName) (k : Nat) (r : PocketRecord), claim = some name ∨ s.outlets[n].slot.name = some name →
            s.ringOffset name = some k → s.tracker.ring[k]? = some r → r.phase = .decided →
            u.tracker.ring[k]? = some { r with phase := .stranded, reason := some .outletFaulted, target := none })
        ∧ (∀ k, (∀ name r, claim = some name ∨ s.outlets[n].slot.name = some name → s.ringOffset name = some k →
              s.tracker.ring[k]? = some r → r.phase ≠ .decided) →
            u.tracker.ring[k]? = s.tracker.ring[k]?)
        ∧ u.tracker = { s.tracker with ring := u.tracker.ring }
        ∧ (∀ m : Fin 16, u.outlets[m].reserved = s.outlets[m].reserved - s.heldFor claim m
            - (if s.outlets[n].slot.name = claim then 0 else s.heldFor s.outlets[n].slot.name m))
        ∧ (∀ m : Fin 16, m ≠ n → u.outlets[m] =
            { s.outlets[m].forgetAll (s.namedDecided claim ++ s.namedDecided s.outlets[n].slot.name) with
              reserved := u.outlets[m].reserved })
        ∧ u.sup = s.sup ∧ u.ltx = s.ltx ∧ u.lrx = s.lrx ∧ u.tables = s.tables ∧ u.now = max s.now expires

/-- R60, R61, R84, R95: a drop in the head entry's window confirms it. On the sweep outlet SWEEP_FULL is raised with the load
pocket and the entry's seq by every confirmation that leaves committed, which holds at 65,535, at its capacity or above. That
OUTLET_FULL is raised as committed + 1 meets the capacity is the model's reading (log 21). -/
def Obligations.DropConfirmsHeadEntry : Prop :=
  ∀ (time : Nat) (n : Fin 16) (s : State) (cfg : OutletEntry) (e : Entry) (rest : List Entry),
    s.held = false → s.lotOpen = true → s.outlets[n].state ≠ .disabled → s.outletEntry n = some cfg →
    s.outlets[n].queue = e :: rest → cfg.flightMin ≤ max s.now time - e.fireTime →
    EndsEvent (exec (.drop time n) s) fun u =>
      u.outlets[n].queue = rest ∧ u.outlets[n].committed = min (s.outlets[n].committed + 1) 65535
        ∧ u.outlets[n].reserved = s.outlets[n].reserved - 1 ∧ u.outlets[n].missRun = 0
        ∧ u.outlets[n].lotTotal = (if e.counted then min (s.outlets[n].lotTotal + 1) 4294967295
            else s.outlets[n].lotTotal)
        ∧ u.sup = { (if cfg.sweep = true ∧ cfg.capacity ≤ min (s.outlets[n].committed + 1) 65535 then
              raiseFault .sweepFull s.faultPocket e.name.seq s else s).sup with
            recovered := if e.counted then s.sup.recovered else min (s.sup.recovered + 1) 4294967295 }
        ∧ (s.outlets[n].committed + 1 = cfg.capacity →
            u.notices[(2 : Fin 11)] = s.notices[(2 : Fin 11)].raised n.val
              ∧ (s.outlets[n].state = .open → u.outlets[n].state = .full))
        ∧ (s.outlets[n].committed + 1 ≠ cfg.capacity →
            u.notices[(2 : Fin 11)] = s.notices[(2 : Fin 11)] ∧ u.outlets[n].state = s.outlets[n].state)
        ∧ (∀ m : Fin 16, m ≠ n → u.outlets[m] = { s.outlets[m] with slot := u.outlets[m].slot })
        ∧ (∀ k, s.firingPlace e.name = some (.ring k) →
            u.tracker = { s.tracker with
              ring := s.tracker.ring.modify k fun r => { r with phase := .gone, target := none } })
        ∧ (∀ d, s.firingPlace e.name = some (.stack d) →
            u.tracker = { s.tracker with
              stack := s.tracker.stack.modify d fun r => { r with phase := .gone, target := none } })
        ∧ (s.firingPlace e.name = none → u.tracker = s.tracker)
        ∧ u.ltx = s.ltx.offer
            { pocket := ((s.firingPlace e.name).map s.pocketOf).getD e.pocket
              outcome := if e.counted then (if cfg.sweep then .swept else .sorted) else .recovered
              outlet := n, hops := e.hops, seq := e.name.seq, finalClass := e.finalClass, reason := e.reason,
              deviation := e.deviation, drift := e.drift, flightTime := some (max s.now time - e.fireTime) }

/-- R83, R65: a drop with no eligible entry is a stray drop; a drop without a lot or on a DISABLED outlet is ignored. -/
def Obligations.DropWithoutEntryIsStray : Prop :=
  ∀ (time : Nat) (n : Fin 16) (s : State), s.held = false →
    (s.lotOpen = false ∨ s.outlets[n].state = .disabled →
      exec (.drop time n) s = .next { s with now := max s.now time }) ∧
    (∀ cfg, s.lotOpen = true → s.outlets[n].state ≠ .disabled → s.outletEntry n = some cfg →
      (∀ e rest, s.outlets[n].queue = e :: rest → max s.now time - e.fireTime < cfg.flightMin) →
      exec (.drop time n) s = .next (finishEvent (raiseNotice .strayDrop n.val { s with
        now := max s.now time, sup := { s.sup with strays := min (s.sup.strays + 1) 4294967295 } })))

/-- R86, R87: the close of the head entry's flight window removes it as a miss, and the place of its record decides the
part's fate; the notices and the report of a booking are made for the entry. That a miss run above its limit faults the
outlet too is the model's reading (log 20), and that the time base moves to the deadline its choice (log 2). -/
def Obligations.FlightMaxIsMiss : Prop :=
  ∀ (n : Fin 16) (s : State) (cfg : OutletEntry) (e : Entry) (rest : List Entry),
    s.held = false → s.lotOpen = true → s.outletEntry n = some cfg → s.outlets[n].queue = e :: rest →
    EndsEvent (exec (.flightMaxMiss n) s) fun u =>
      MissTaken s u n rest
        ∧ (∀ pocket booked,
            (∃ k r, s.firingPlace e.name = some (.ring k) ∧ s.tracker.ring[k]? = some r ∧ pocket = s.pocketAt k
              ∧ booked = (r.checked && e.counted)) ∨
              (∃ d, s.firingPlace e.name = some (.stack d) ∧ pocket = s.pocketAt (s.z + (d + 1)) ∧ booked = e.counted) ∨
              (s.firingPlace e.name = none ∧ pocket = e.pocket ∧ booked = e.counted) →
            Books s u booked pocket
              { pocket := pocket, outcome := .unaccounted, outlet := n, hops := e.hops, seq := e.name.seq,
                finalClass := e.finalClass, reason := e.reason, deviation := e.deviation, drift := e.drift,
                flightTime := none })
        ∧ (∀ k r, s.firingPlace e.name = some (.ring k) → s.tracker.ring[k]? = some r →
            u.tracker.ring[k]? = some
              (if r.checked then { r with phase := if e.counted then .lost else .void, target := none }
                else { r with phase := .stranded, reason := some .missedDrop, target := none })
              ∧ u.tracker.stack = s.tracker.stack)
        ∧ (∀ d r, s.firingPlace e.name = some (.stack d) → s.tracker.stack[d]? = some r →
            u.tracker.stack = s.tracker.stack.set d { r with phase := if e.counted then .lost else .void, target := none })
        ∧ (s.firingPlace e.name = none → u.tracker.stack = s.tracker.stack)
        ∧ (¬ s.missFaults n ∨ s.outlets[n].slot = .free → ∀ j, s.firingPlace e.name ≠ some (.ring j) →
            u.tracker.ring[j]? = s.tracker.ring[j]?)
        ∧ u.tables = s.tables ∧ u.lrx = s.lrx ∧ u.now = max s.now (e.fireTime + cfg.flightMax)

/-- R104: a drop on an outlet below its largest lot total keeps the balance of counted parts. -/
def Obligations.DropKeepsBalance : Prop :=
  ∀ (time : Nat) (n : Fin 16) (s : State), s.outlets[n].lotTotal < 4294967295 →
    Completes (exec (.drop time n) s) fun t => t.sup.present = s.sup.present ∧ t.accounted = s.accounted

/-- R55, R56, R58: routing takes the first usable candidate of at most five, each after the first being the overflow outlet
of the one before, with the number of links followed as its hop count; when none is usable it takes the sweep outlet with hop
count 5. -/
def Obligations.RoutingTakesFirstUsableCandidate : Prop :=
  ∀ (s : State) (first : Fin 16) (offset : Nat),
    (∀ n : Fin 16, s.usable offset n = true ↔ ∃ e, s.outletEntry n = some e ∧
      (e.sweep = true ∨ (s.outlets[n].state = .open ∧ s.outlets[n].committed + s.outlets[n].reserved < e.capacity
        ∧ offset < e.offset))) ∧
    (∀ i c, i ≤ 4 → s.candidate first i = some c → s.usable offset c = true →
      (∀ j c', j < i → s.candidate first j = some c' → s.usable offset c' = false) →
      s.route first offset = { outlet := c, hops := i }) ∧
    ((∀ i c, i ≤ 4 → s.candidate first i = some c → s.usable offset c = false) →
      s.route first offset = { outlet := s.sweepOutlet, hops := 5 })

/-! ### MEAS -/

/-- R23, R24, R31 to R33: a MEAS frame that a test turns away, in the order of the tests, changes only the last discard
reason and the notice, and takes the frame from its queue, at which HOLD is judged (R168): without a lot; malformed, of a
station that is not enabled, or with a status of another station; by its pocket's offset k = (load_pocket − p) mod P; by the
record it meets. -/
def Obligations.MeasIsDiscarded : Prop :=
  ∀ (s : State) (f : InFrame) (rest : List InFrame) (reason : Discard), Serves s .meas f rest →
    (s.lotOpen = false ∧ reason = .noLot) ∨
    (s.lotOpen = true ∧ reason = .badStation ∧
      (Meas.ofPayload f.payload = none ∨ ∃ m, Meas.ofPayload f.payload = some m ∧
        (s.station m.station = none ∨ m.status.belongsTo m.station = false))) ∨
    (∃ (m : Meas) (e : StationEntry) (lp k : Nat), s.lotOpen = true ∧ Meas.ofPayload f.payload = some m
      ∧ s.station m.station = some e ∧ m.status.belongsTo m.station = true ∧ s.tracker.loadPocket = some lp
      ∧ k = (((lp : Int) - (m.pocket : Int)) % (s.dial.pockets : Int)).toNat ∧
      ((s.dial.pockets ≤ m.pocket ∧ reason = .outOfZone) ∨
        (m.pocket < s.dial.pockets ∧ k < e.offset ∧ reason = .early) ∨
        (m.pocket < s.dial.pockets ∧ e.offset + e.allowance < k ∧ k ≤ s.z ∧ reason = .late) ∨
        (m.pocket < s.dial.pockets ∧ e.offset + e.allowance < k ∧ s.z < k ∧ reason = .outOfZone))) ∨
    (∃ (k : Nat) (r : PocketRecord) (m : Meas), MeasAt s f rest k r m ∧
      ((∃ x ∈ r.results, x.station = m.station) ∧ reason = .duplicate ∨
        (∀ x ∈ r.results, x.station ≠ m.station) ∧
          ((r.phase ∈ [Phase.open, .void] ∧ m.station ≠ .contact ∧ reason = .notLoaded) ∨
            (r.phase = .empty ∧ m.station = .contact ∧ reason = .duplicate) ∨
            (r.phase = .empty ∧ m.station ≠ .contact ∧ reason = .notLoaded) ∨
            (r.phase = .held ∧ m.station = .contact ∧ reason = .duplicate) ∨
            (r.phase = .held ∧ m.station = .recheck ∧ (∀ x ∈ r.results, x.station ≠ .value) ∧ reason = .early) ∨
            (r.phase ∈ [Phase.decided, .firing, .gone, .stranded, .retained, .lost] ∧ reason = .final)))) →
    exec .meas s = .next (finishEvent (raiseNotice .measDiscarded reason.code { s with
      sup := { s.sup with lastDiscard := some reason }
      lrx := { s.lrx with inbound := rest, hold := holdLevel s.link rest.length s.lrx.hold } }))

/-- R34, R35, R36, R47: what a contact result does to an OPEN and to a VOID record. -/
def Obligations.ContactResultApplies : Prop :=
  ∀ (s : State) (f : InFrame) (rest : List InFrame) (k : Nat) (r : PocketRecord) (m : Meas),
    MeasAt s f rest k r m → m.station = .contact → r.hasResult .contact = false →
    (r.phase = .open → m.status = .part → EndsEvent (exec .meas s) fun u =>
      u.tracker = { s.tracker with
          ring := s.tracker.ring.set k { r with results := r.results ++ [m.result], counted := true, phase := .held } }
        ∧ u.outlets = s.outlets ∧ u.sup = { s.sup with present := min (s.sup.present + 1) 4294967295 }
        ∧ MeasKeeps s u rest) ∧
    (r.phase = .open → m.status = .noPart → EndsEvent (exec .meas s) fun u =>
      u.tracker = { s.tracker with
          ring := s.tracker.ring.set k { r with results := r.results ++ [m.result], phase := .empty } }
        ∧ u.outlets = s.outlets ∧ u.sup = s.sup ∧ MeasKeeps s u rest) ∧
    (r.phase = .void → m.status = .noPart → EndsEvent (exec .meas s) fun u =>
      u.tracker = { s.tracker with ring := s.tracker.ring.set k { r with results := r.results ++ [m.result] } }
        ∧ u.outlets = s.outlets ∧ u.sup = s.sup ∧ MeasKeeps s u rest) ∧
    (∀ verdict reason,
      (r.phase = .open ∧ m.status = .contactFail ∧ verdict = .contactReject ∧ reason = .contactFail) ∨
        (r.phase = .void ∧ (m.status = .part ∨ m.status = .contactFail) ∧ verdict = .retest ∧ reason = .stray) →
      EndsEvent (exec .meas s) fun u =>
        s.decides u k { r with results := r.results ++ [m.result], counted := true } verdict reason
          ∧ u.sup = { s.sup with present := min (s.sup.present + 1) 4294967295 } ∧ MeasKeeps s u rest)

/-- R37 to R41: the verdict or the provisional class that a VALUE result gives a HELD record; the class is the first
enabled entry that contains d = trunc(10^6 × (V − N) / N). -/
def Obligations.ValueResultApplies : Prop :=
  ∀ (s : State) (f : InFrame) (rest : List InFrame) (k : Nat) (r : PocketRecord) (m : Meas) (lot : LotEntry),
    MeasAt s f rest k r m → m.station = .value → r.phase = .held → r.hasResult .value = false →
    s.lotEntry = some lot →
    (∀ (v : Nat × Int) (d : Int), m.status = .ok → m.value = some v →
      d = Int.tdiv (1000000 * ((milliohms v : Int) - (lot.nominal : Int))) lot.nominal →
      (∀ c, d.natAbs ≤ 999999 → s.firstClass d c → (s.station .recheck).isSome = true →
        EndsEvent (exec .meas s) fun u =>
          u.tracker = { s.tracker with
              ring := s.tracker.ring.set k { r with
                results := r.results ++ [m.result], deviation := some d, provisional := some c } }
            ∧ u.outlets = s.outlets ∧ u.sup = s.sup ∧ MeasKeeps s u rest) ∧
      (∀ verdict reason dev saturated,
        (999999 < d.natAbs ∧ verdict = .outOfTolerance ∧ reason = .outOfTolerance ∧ saturated = true
            ∧ dev = if d < 0 then -999999 else 999999) ∨
          (d.natAbs ≤ 999999 ∧ (∀ c, ¬ s.classContains d c) ∧ verdict = .outOfTolerance ∧ reason = .outOfTolerance
            ∧ saturated = r.saturated ∧ dev = d) ∨
          (∃ c, d.natAbs ≤ 999999 ∧ s.firstClass d c ∧ (s.station .recheck).isSome = false ∧ verdict = .cls c
            ∧ reason = .inClass ∧ saturated = r.saturated ∧ dev = d) →
        EndsEvent (exec .meas s) fun u =>
          s.decides u k { r with results := r.results ++ [m.result], deviation := some dev, saturated := saturated }
              verdict reason
            ∧ u.sup = s.sup ∧ MeasKeeps s u rest)) ∧
    (∀ verdict reason,
      ((m.status = .overHigh ∨ m.status = .overLow) ∧ verdict = .outOfTolerance ∧ reason = .outOfTolerance) ∨
        (m.status = .meterError ∧ verdict = .retest ∧ reason = .meterError) →
      EndsEvent (exec .meas s) fun u =>
        s.decides u k { r with results := r.results ++ [m.result] } verdict reason
          ∧ u.sup = s.sup ∧ MeasKeeps s u rest)

/-- R42 to R44: the verdict that a RECHECK result gives a HELD record with a VALUE result of V1 and a provisional class. -/
def Obligations.RecheckResultApplies : Prop :=
  ∀ (s : State) (f : InFrame) (rest : List InFrame) (k : Nat) (r : PocketRecord) (m : Meas) (lot : LotEntry)
      (c : Fin 32) (v1 : Nat × Int),
    MeasAt s f rest k r m → m.station = .recheck → r.phase = .held → r.hasResult .recheck = false →
    r.results.find? (fun x => x.station == .value) = some { station := .value, status := .ok, value := some v1 } →
    r.provisional = some c → s.lotEntry = some lot →
    (∀ (v2 : Nat × Int) (drift : Nat) verdict reason, m.status = .ok → m.value = some v2 →
      (milliohms v1 = 0 ∧ drift = 999999) ∨
        (milliohms v1 ≠ 0 ∧
          drift = min 999999 (1000000 * ((milliohms v2 : Int) - (milliohms v1 : Int)).natAbs / milliohms v1)) →
      (lot.driftLimit < drift ∧ verdict = .driftReject ∧ reason = .drift) ∨
        (drift ≤ lot.driftLimit ∧ verdict = .cls c ∧ reason = .inClass) →
      EndsEvent (exec .meas s) fun u =>
        s.decides u k { r with results := r.results ++ [m.result], drift := some drift } verdict reason
          ∧ u.sup = s.sup ∧ MeasKeeps s u rest) ∧
    (m.status ≠ .ok → EndsEvent (exec .meas s) fun u =>
      s.decides u k { r with results := r.results ++ [m.result] } .retest .meterError
        ∧ u.sup = s.sup ∧ MeasKeeps s u rest)

/-! ### Queries -/

/-- R173: STATUS_QUERY is answered with the whole status, 49 bytes and 7 for each fault entry, of the engine after the frame
has left the inbound queue; the bytes of absent fields are free values (the model's choice, log 12). Nothing else changes but
the model's counter of free values. -/
def Obligations.StatusQueryIsAnswered : Prop :=
  ∀ (s v : State) (f : InFrame) (rest : List InFrame), Serves s .statusQuery f rest → f.payload = [] →
    v = setInbound rest s →
    (EndsOnLine (exec .statusQuery s) fun u => u = answer f 0x10 .done v.statusBytes { v with unstated := u.unstated }) ∧
    v.statusBytes.length + 2 = 49 + 7 * ((if s.sup.faults.first.isSome then 1 else 0) + s.sup.faults.later.length) ∧
    slice v.statusBytes 0 4 = [BitVec.ofNat 8 s.sup.engine.code]
      ++ (match s.sup.returnState with
          | some ret => [BitVec.ofNat 8 ret.code]
          | none => [0xFF])
      ++ (match s.sup.clearance with
          | some c => [BitVec.ofNat 8 c.stage.code, BitVec.ofNat 8 c.kind.endKind.code]
          | none => [0xFF, 0xFF]) ∧
    (∀ c, s.sup.clearance = some c → slice v.statusBytes 4 3 = signedBytesOf 3 c.count) ∧
    (v.statusBytes[7]? = some (match s.tracker.loadPocket with
      | some p => BitVec.ofNat 8 p
      | none => 0xFF)) ∧
    (∀ q, s.tracker.nextSeq = some q → q ≤ 4294967295 → slice v.statusBytes 8 5 = 1 :: bytesOf 4 q) ∧
    (∀ q, s.tracker.nextSeq = some q → 4294967295 < q → v.statusBytes[8]? = some 2) ∧
    (s.tracker.nextSeq = none → v.statusBytes[8]? = some 0) ∧
    (∀ id, s.sup.lotId = some id → slice v.statusBytes 13 5 = 1 :: bytesOf 4 id) ∧
    (s.sup.lotId = none → v.statusBytes[13]? = some 0) ∧
    slice v.statusBytes 18 18 = bytesOf 4 s.sup.present ++ bytesOf 4 s.sup.unaccounted ++ bytesOf 4 s.sup.recovered
      ++ bytesOf 4 s.sup.strays ++ bytesOf 1 s.sup.resetCause.code
      ++ (match s.sup.lastDiscard with
          | some reason => [BitVec.ofNat 8 reason.code]
          | none => [0xFF]) ∧
    (∀ a, s.lrx.nodeAddress = some a → v.statusBytes[36]? = some (BitVec.ofNat 8 a.val)) ∧
    slice v.statusBytes 37 8 = bytesOf 1 rest.length ++ bytesOf 1 s.ltx.outbound.length ++ bytesOf 1 s.lrx.urgent.length
      ++ [if v.lrx.hold then 1 else 0] ++ bytesOf 2 s.pendingWord ++ bytesOf 2 s.maskWord ∧
    v.statusBytes.drop 45 = v.faultBlock

/-- R174: POCKET_QUERY of a ring offset up to Z or of a stack depth that is held is answered with the record, field by field
as its presence byte says, and every other one is refused with the code of its first failing test. -/
def Obligations.PocketQueryIsAnswered : Prop :=
  (∀ (s : State) (f : InFrame) (rest : List InFrame) (sel pos : Byte), Serves s .pocketQuery f rest →
    f.payload = [sel, pos] →
    ∀ (result : ResultCode) (bytes : List Byte),
      (1 < sel.toNat ∧ result = .badField ∧ bytes = [1]) ∨
        (sel.toNat ≤ 1 ∧ s.lotOpen = false ∧ result = .refusedState ∧ bytes = []) ∨
        (sel = 0 ∧ s.lotOpen = true ∧ s.tracker.ring.length ≤ pos.toNat ∧ result = .badIndex ∧ bytes = []) ∨
        (sel = 1 ∧ s.lotOpen = true ∧ (pos = 0 ∨ s.tracker.stack.length < pos.toNat) ∧ result = .badIndex ∧ bytes = []) ∨
        (∃ r, sel = 0 ∧ s.lotOpen = true ∧ s.tracker.ring[pos.toNat]? = some r ∧ result = .done
          ∧ bytes = [sel, pos] ++ bytesOf 1 (s.pocketAt pos.toNat) ++ r.bytes) ∨
        (∃ r, sel = 1 ∧ s.lotOpen = true ∧ pos ≠ 0 ∧ s.tracker.stack[pos.toNat - 1]? = some r ∧ result = .done
          ∧ bytes = [sel, pos] ++ bytesOf 1 (s.pocketAt (s.z + pos.toNat)) ++ r.bytes) →
      exec .pocketQuery s = .next (finishLine (answer f 0x11 result bytes (setInbound rest s)))) ∧
  (∀ r : PocketRecord, r.bytes =
    [BitVec.ofNat 8 ((if r.seq.isSome then 1 else 0) + (if r.provisional.isSome then 2 else 0)
        + (if r.finalClass.isSome then 4 else 0) + (if r.reason.isSome then 8 else 0) + (if r.target.isSome then 16 else 0)
        + (if r.deviation.isSome then 32 else 0) + (if r.drift.isSome then 64 else 0)),
      BitVec.ofNat 8 r.phase.code,
      BitVec.ofNat 8 ((if r.counted then 1 else 0) + (if r.checked then 2 else 0) + (if r.saturated then 4 else 0)),
      BitVec.ofNat 8 r.results.length]
    ++ (r.results.flatMap fun x => [BitVec.ofNat 8 x.station.code, BitVec.ofNat 8 x.status.code]
      ++ (match x.value with
          | some (mantissa, exponent) => bytesOf 3 mantissa ++ signedBytesOf 1 exponent
          | none => []))
    ++ (match r.seq with
        | some q => bytesOf 4 q
        | none => [])
    ++ (match r.provisional with
        | some c => [BitVec.ofNat 8 c.val]
        | none => [])
    ++ (match r.finalClass with
        | some verdict => [BitVec.ofNat 8 verdict.code]
        | none => [])
    ++ (match r.reason with
        | some reason => [BitVec.ofNat 8 reason.code]
        | none => [])
    ++ (match r.target with
        | some route => [BitVec.ofNat 8 route.outlet.val, BitVec.ofNat 8 route.hops]
        | none => [])
    ++ (match r.deviation with
        | some d => signedBytesOf 3 d
        | none => [])
    ++ (match r.drift with
        | some d => bytesOf 3 d
        | none => []))

/-- R175: OUTLET_QUERY is answered with the outlet's whole record, its capacity (0 without an active entry) and its
confirmation entries oldest first, and a number above 15 is refused with BAD_INDEX; the bytes of a slot seq that is absent
are free values (log 12). -/
def Obligations.OutletQueryIsAnswered : Prop :=
  ∀ (s v : State) (f : InFrame) (rest : List InFrame) (b : Byte), Serves s .outletQuery f rest → f.payload = [b] →
    v = setInbound rest s →
    (15 < b.toNat → exec .outletQuery s = .next (finishLine (answer f 0x12 .badIndex [] v))) ∧
    (∀ n : Fin 16, b.toNat = n.val →
      (EndsOnLine (exec .outletQuery s) fun u =>
        u = answer f 0x12 .done (v.outletBytes n) { v with unstated := u.unstated }) ∧
      (v.outletBytes n).take 10 = bytesOf 1 n.val ++ bytesOf 1 s.outlets[n].state.code ++ bytesOf 2 s.outlets[n].committed
          ++ bytesOf 1 s.outlets[n].reserved ++ bytesOf 4 s.outlets[n].lotTotal ++ bytesOf 1 s.outlets[n].missRun ∧
      (∀ t e, s.tables.active = some t → t.outlets[n] = some e → slice (v.outletBytes n) 10 2 = bytesOf 2 e.capacity) ∧
      (s.tables.active = none ∨ (∃ t, s.tables.active = some t ∧ t.outlets[n] = none) →
        slice (v.outletBytes n) 10 2 = [0, 0]) ∧
      (v.outletBytes n)[12]? = some (BitVec.ofNat 8 s.outlets[n].slot.code) ∧
      (∀ q, s.outlets[n].slot.name = some (.numbered q) → slice (v.outletBytes n) 13 5 = 1 :: bytesOf 4 q) ∧
      ((∀ q, s.outlets[n].slot.name ≠ some (.numbered q)) → (v.outletBytes n)[13]? = some 0) ∧
      (v.outletBytes n).drop 18 = bytesOf 1 s.outlets[n].drive.code ++ bytesOf 1 s.outlets[n].queue.length
        ++ s.outlets[n].queue.flatMap fun e =>
            (match e.name with
              | .numbered q => (if e.counted then 3 else 1) :: bytesOf 4 q
              | .unnumbered _ => [if e.counted then 2 else 0])
              ++ bytesOf 2 (s.now - e.fireTime))

/-! ### Tables -/

/-- R116, R117: an accepted TABLE_WRITE replaces its entry, folds its payload and answers with the check; a write that a
test refuses changes no table. -/
def Obligations.TableWriteStoresOrRefuses : Prop :=
  ∀ (s : State) (f : InFrame) (rest : List InFrame) (kind : TableKind) (b : Byte) (fields : List Byte) (index : Byte),
    Serves s .tableWrite f rest → TableKind.ofByte b = some kind → f.payload = b :: index :: fields →
    (fields.length + 2 = kind.writeLen → index.toNat < kind.entries → firstBad 3 (kind.rangeTests fields) = none →
      exec .tableWrite s = .next (finishLine
        (answer f 0x20 .done (b :: index :: bytesOf 2 (crcFold s.tables.check f.payload).toNat) { setInbound rest s with
          tables := { s.tables with staged := s.tables.staged.write kind index.toNat fields,
                                    check := crcFold s.tables.check f.payload } }))) ∧
    (∀ (result : ResultCode) (bytes : List Byte),
      (fields.length + 2 ≠ kind.writeLen ∧ result = .badLength ∧ bytes = []) ∨
        (fields.length + 2 = kind.writeLen ∧ kind.entries ≤ index.toNat ∧ result = .badIndex ∧ bytes = []) ∨
        (∃ number, fields.length + 2 = kind.writeLen ∧ index.toNat < kind.entries
          ∧ firstBad 3 (kind.rangeTests fields) = some number ∧ result = .badField ∧ bytes = bytesOf 1 number) →
      exec .tableWrite s = .next (finishLine (answer f 0x20 result bytes (setInbound rest s))))

/-- R124: TABLE_READ answers with the entry, marks it absent, or is refused when no active set exists; it changes no
table. -/
def Obligations.TableReadIsAnswered : Prop :=
  ∀ (s : State) (f : InFrame) (rest : List InFrame) (kind : TableKind) (sel b index : Byte),
    Serves s .tableRead f rest → f.payload = [sel, b, index] → TableKind.ofByte b = some kind →
    index.toNat < kind.entries →
    ∀ (result : ResultCode) (bytes : List Byte),
      (sel = 0 ∧ s.tables.active = none ∧ result = .refusedState ∧ bytes = []) ∨
        (∃ set check, result = .done ∧
          ((sel = 0 ∧ s.tables.active = some set ∧ check = []) ∨
            (sel = 1 ∧ s.tables.staged = set ∧ check = bytesOf 2 s.tables.check.toNat)) ∧
          ((set.read kind index.toNat = none ∧ bytes = [sel, b, index, 0] ++ check) ∨
            (∃ fields, set.read kind index.toNat = some fields ∧ bytes = [sel, b, index, 1] ++ fields ++ check))) →
      exec .tableRead s = .next (finishLine (answer f 0x21 result bytes (setInbound rest s)))

/-- R118: TABLE_DISCARD returns the staged set to the active set, restarts the check and answers with it; with a payload it
is refused with BAD_LENGTH and changes nothing. -/
def Obligations.TableDiscardRestoresStaging : Prop :=
  ∀ (s : State) (f : InFrame) (rest : List InFrame), Serves s .tableDiscard f rest →
    (f.payload = [] → exec .tableDiscard s = .next (finishLine (answer f 0x22 .done [0xFF, 0xFF] { setInbound rest s with
      tables := { active := s.tables.active, staged := s.tables.active.getD .absent, check := 0xFFFF } }))) ∧
    (f.payload ≠ [] → exec .tableDiscard s = .next (finishLine (answer f 0x22 .badLength [] (setInbound rest s))))

/-- R67, R119, R120, R122: a TABLE_COMMIT whose check agrees and whose staging is valid activates it. It is refused when a
lot is open, when the check differs (the staging is discarded), or when a validation check fails (code and entry index; 0xFF
when absent). -/
def Obligations.TableCommitActivatesOrRefuses : Prop :=
  (∀ (s : State) (f : InFrame) (rest : List InFrame), Serves s .tableCommit f rest → s.lotOpen = false →
    f.payload = bytesOf 2 s.tables.check.toNat → s.tables.staged.invalid = none →
    EndsOnLine (exec .tableCommit s) fun u =>
      ∃ new : TableSet, new = { s.tables.staged with link := some (s.tables.staged.link.getD .default) }
        ∧ u.tables = { active := some new, staged := new, check := 0xFFFF }
        ∧ u.sup = { s.sup with engine := .ready }
        ∧ u.tracker = s.tracker
        ∧ (∀ n e0 e, s.outletEntry n = some e0 → new.outlet n = some e → u.outlets[n] = { s.outlets[n] with
            state := if s.outlets[n].state = .faulted ∧ e.sweep = false then .faulted
              else if e.capacity ≤ s.outlets[n].committed then .full else .open })
        ∧ (∀ n e, s.outletEntry n = none → new.outlet n = some e →
            u.outlets[n] = { s.outlets[n] with state := .open, committed := 0, missRun := 0 })
        ∧ (∀ n e0, s.outletEntry n = some e0 → new.outlet n = none →
            u.outlets[n] = { s.outlets[n] with state := .disabled, committed := 0, missRun := 0 })
        ∧ (∀ n, s.outletEntry n = none → new.outlet n = none → u.outlets[n] = { s.outlets[n] with state := .disabled })
        ∧ u.ltx.outbound = s.ltx.outbound ++ [{ tag := f.tag, body := .reply 0x23 .done f.payload, flags := none }]) ∧
  (∀ (s : State) (f : InFrame) (rest : List InFrame), Serves s .tableCommit f rest → f.payload.length = 2 →
    (s.lotOpen = true → exec .tableCommit s = .next (finishLine (answer f 0x23 .refusedState [] (setInbound rest s)))) ∧
    (s.lotOpen = false → f.payload ≠ bytesOf 2 s.tables.check.toNat →
      exec .tableCommit s = .next (finishLine
        (answer f 0x23 .checkMismatch (bytesOf 2 s.tables.check.toNat) { setInbound rest s with
          tables := { active := s.tables.active, staged := s.tables.active.getD .absent, check := 0xFFFF } }))) ∧
    (∀ code index, s.lotOpen = false → f.payload = bytesOf 2 s.tables.check.toNat →
      s.tables.staged.invalid = some (code, index) →
      exec .tableCommit s = .next (finishLine
        (answer f 0x23 .tableInvalid (bytesOf 1 code ++ bytesOf 1 (index.getD 0xFF)) (setInbound rest s)))))

/-! ### Lots, faults and notices -/

/-- R3, R28, R66, R128: LOT_START in READY with a load pocket below P and JAM inactive opens the lot; the first of its tests
that fails refuses it: outside READY, a load pocket of P or more, JAM active (the seq bytes of the answered fault record are
free values where absent, log 12). -/
def Obligations.LotStartOpensLot : Prop :=
  (∀ (s : State) (f : InFrame) (rest : List InFrame) (lotId pocket : Nat), Serves s .lotStart f rest →
    s.sup.engine = .ready → f.payload = bytesOf 4 lotId ++ bytesOf 1 pocket → lotId < 4294967296 → pocket < 256 →
    pocket < s.dial.pockets → s.jam = false →
    EndsOnLine (exec .lotStart s) fun u =>
      u.sup = { s.sup with engine := .sorting, returnState := none, clearance := none, faults := .empty,
                           lotId := some lotId, present := 0, unaccounted := 0, recovered := 0, strays := 0 }
        ∧ u.tracker.ring.length = s.z + 1
        ∧ (∀ r ∈ u.tracker.ring, ∃ ident, r = PocketRecord.fresh none ident .void)
        ∧ u.tracker.stack = [] ∧ u.tracker.nextSeq = some 1 ∧ u.tracker.loadPocket = some pocket
        ∧ u.tracker.checkTimer = none
        ∧ (∀ n : Fin 16, u.outlets[n] = { s.outlets[n] with lotTotal := 0 })
        ∧ u.tables = s.tables
        ∧ u.ltx.outbound = s.ltx.outbound ++ [{ tag := f.tag, body := .reply 0x30 .done f.payload, flags := none }]) ∧
  (∀ (s : State) (f : InFrame) (rest : List InFrame) (lotId pocket : Nat), Serves s .lotStart f rest →
    f.payload = bytesOf 4 lotId ++ bytesOf 1 pocket → lotId < 4294967296 → pocket < 256 →
    (s.sup.engine ≠ .ready → exec .lotStart s = .next (finishLine (answer f 0x30 .refusedState [] (setInbound rest s)))) ∧
    (s.sup.engine = .ready → s.dial.pockets ≤ pocket →
      exec .lotStart s = .next (finishLine (answer f 0x30 .badField [2] (setInbound rest s)))) ∧
    (s.sup.engine = .ready → pocket < s.dial.pockets → s.jam = true → EndsOnLine (exec .lotStart s) fun u =>
      u = answer f 0x30 .stillActive s.faultBlock { setInbound rest s with unstated := u.unstated }))

/-- R129, R147, R152: LOT_END in SORTING, or in HALTED with return state SORTING, begins clearance with RUN_OUT, or, under
the abandon option, ends the slots, settles the ring from offset 0 to Z, booking and releasing its counted records, and
begins SETTLE; in every other state it is refused. That an uncounted HELD or DECIDED record is left as it is is the model's
reading (log 23). -/
def Obligations.LotEndBeginsClearance : Prop :=
  ∀ (s : State) (f : InFrame) (rest : List InFrame), Serves s .lotEnd f rest → f.payload = [] →
    ((s.sup.engine = .sorting ∨ s.sup.engine = .halted ∧ s.sup.returnState = some .sorting) →
      s.lotEntry.any LotEntry.abandon = false →
      exec .lotEnd s = .next (finishEvent (answer f 0x31 .done [0] { setInbound rest s with
        sup := { s.sup with
          engine := if s.sup.engine = .sorting then .clearing else .halted
          returnState := if s.sup.engine = .sorting then none else some .clearing
          clearance := some { stage := .runOut, kind := .ran, count := 0 } } }))) ∧
    ((s.sup.engine = .sorting ∨ s.sup.engine = .halted ∧ s.sup.returnState = some .sorting) →
      s.lotEntry.any LotEntry.abandon = true →
      EndsEvent (exec .lotEnd s) fun u =>
        u.runOutComplete = true
          ∧ u.sup = { s.sup with
              engine := if s.sup.engine = .sorting then .clearing else .halted
              returnState := if s.sup.engine = .sorting then none else some .clearing
              clearance := some { stage := .settle, kind := .abandoned, count := 0 }
              unaccounted := u.sup.unaccounted }
          ∧ (s.sup.unaccounted ≤ 4294967295 →
              u.sup.unaccounted = min (s.sup.unaccounted + s.ringReports.length) 4294967295)
          ∧ (∀ (k : Nat) (r : PocketRecord), s.tracker.ring[k]? = some r →
              (r.counted = true → r.phase ∈ [Phase.held, .decided, .stranded, .retained] →
                u.tracker.ring[k]? = some { r with phase := .lost, target := none }) ∧
              (r.phase = .open ∨ r.counted = false ∧ r.phase = .stranded →
                u.tracker.ring[k]? = some { r with phase := .void, target := none }) ∧
              (r.counted = false → r.phase = .retained →
                u.tracker.ring[k]? = some { r with phase := .lost, target := none }) ∧
              (r.phase ∈ [Phase.void, .empty, .firing, .gone, .lost] ∨
                  r.counted = false ∧ r.phase ∈ [Phase.held, .decided] → u.tracker.ring[k]? = some r))
          ∧ u.tracker.ring.length = s.tracker.ring.length ∧ u.tracker = { s.tracker with ring := u.tracker.ring }
          ∧ (∀ n : Fin 16, u.outlets[n] = { s.outlets[n].forgetAll s.countedDecided with
              slot := .free
              reserved := s.outlets[n].reserved - (s.tracker.ring.filter fun r => r.counted && r.decidedFor n).length })
          ∧ RaisedFor s u s.ringReports
          ∧ u.ltx = { s.ltx.offerAll s.ringReports with outbound := (s.ltx.offerAll s.ringReports).outbound ++
              [{ tag := f.tag, body := .reply 0x31 .done [1], flags := none }] }) ∧
    (¬ (s.sup.engine = .sorting ∨ s.sup.engine = .halted ∧ s.sup.returnState = some .sorting) →
      exec .lotEnd s = .next (finishLine (answer f 0x31 .refusedState [] (setInbound rest s))))

/-- R130, R131, R105: LOT_ABORT books what stands, closes the lot and queues its reply and its summary behind the booking
reports: the standing ring records' from offset 0 to Z, then the counted entries'. That each entry's record is found by its
own name is the name law's part. -/
def Obligations.LotAbortClosesLot : Prop :=
  ∀ (s : State) (f : InFrame) (rest : List InFrame), Serves s .lotAbort f rest → f.payload = [] → s.lotOpen = true →
    EndsOnLine (exec .lotAbort s) fun u =>
      u.sup.engine = .ready ∧ u.sup.returnState = none ∧ u.sup.clearance = none ∧ u.sup.faults = .empty
        ∧ u.tracker.ring = [] ∧ u.tracker.stack = [] ∧ u.tracker.checkTimer = none
        ∧ u.tracker.loadPocket = s.tracker.loadPocket ∧ u.tracker.nextSeq = s.tracker.nextSeq
        ∧ (∀ n : Fin 16, u.outlets[n] = { s.outlets[n] with reserved := 0, queue := [], slot := .free, drive := .quiet })
        ∧ (s.sup.unaccounted ≤ 4294967295 →
            u.sup.unaccounted = min (s.sup.unaccounted + s.abortCount) 4294967295)
        ∧ u.sup.present = s.sup.present ∧ u.sup.lotId = s.sup.lotId
        ∧ s.abortCount = (s.ringReports ++ s.entryReports).length
        ∧ ∃ sent : LineTransmitter, u.ltx = { sent with outbound := sent.outbound ++
              [{ tag := f.tag, body := .reply 0x32 .done (bytesOf 4 s.abortCount), flags := none },
               { tag := 0, body := .lotSummary (u.lotSummary .aborted), flags := none }] }
            ∧ (NameLaw s → sent = s.ltx.offerAll (s.ringReports ++ s.entryReports)
              ∧ RaisedFor s u (s.ringReports ++ s.entryReports))

/-- R63: OUTLET_RESET empties the bin of an enabled outlet; it is refused for a DISABLED one and for a number above 15. -/
def Obligations.OutletResetEmptiesBin : Prop :=
  ∀ (s : State) (f : InFrame) (rest : List InFrame) (b : Byte), Serves s .outletReset f rest → f.payload = [b] →
    (∀ n : Fin 16, b.toNat = n.val → s.outlets[n].state ≠ .disabled →
      exec .outletReset s = .next (finishLine
        (answer f 0x33 .done (b :: bytesOf 2 s.outlets[n].committed) { setInbound rest s with
          outlets := s.outlets.set n { s.outlets[n] with committed := 0, missRun := 0, state := .open } }))) ∧
    (∀ n : Fin 16, b.toNat = n.val → s.outlets[n].state = .disabled →
      exec .outletReset s = .next (finishLine (answer f 0x33 .refusedState [] (setInbound rest s)))) ∧
    (15 < b.toNat → exec .outletReset s = .next (finishLine (answer f 0x33 .badIndex [] (setInbound rest s))))

/-- R138, R156: CLEAR_FAULT answers with the fault record, empties it and returns to the return state; a SUMMARY stage that
waited closes the lot within it when a place is left after the reply. It is refused outside HALTED, and with STILL_ACTIVE and
the fault record while JAM is active. The seq bytes of a fault without seq are free values (log 12). -/
def Obligations.ClearFaultResumes : Prop :=
  ∀ (s : State) (f : InFrame) (rest : List InFrame), Serves s .clearFault f rest → f.payload = [] →
    s.faultBlock.length = 2 + 7 * ((if s.sup.faults.first.isSome then 1 else 0) + s.sup.faults.later.length) ∧
    (∀ ret : RunState, s.sup.engine = .halted → s.jam = false → s.sup.returnState = some ret →
      (s.stage ≠ some .summary ∨ ret = .sorting ∨ s.ltx.outbound.length = 31) →
      EndsOnLine (exec .clearFault s) fun u =>
        u = answer f 0x34 .done (s.faultBlock ++ [BitVec.ofNat 8 ret.code]) { setInbound rest s with
          unstated := u.unstated
          sup := { s.sup with
            engine := if ret = .sorting then .sorting else .clearing, returnState := none, faults := .empty } }) ∧
    (∀ c : Clearance, s.sup.engine = .halted → s.jam = false → s.sup.returnState = some .clearing →
      s.sup.clearance = some c → c.stage = .summary → s.ltx.outbound.length ≤ 30 →
      EndsOnLine (exec .clearFault s) fun u =>
        u.sup = { s.sup with engine := .ready, returnState := none, faults := .empty, clearance := none }
          ∧ u.tracker = { s.tracker with ring := [], stack := [], checkTimer := none }
          ∧ (∀ n : Fin 16, u.outlets[n] = { s.outlets[n] with slot := .free, drive := .quiet })
          ∧ u.ltx.outbound = s.ltx.outbound ++
              [{ tag := f.tag, body := .reply 0x34 .done (s.faultBlock ++ [3]), flags := none },
               { tag := 0, flags := none, body := .lotSummary (s.lotSummary
                  (if c.kind = .ran then .cleared else .abandoned)) }]
          ∧ u.notices[(10 : Fin 11)] = s.notices[(10 : Fin 11)].raised (if c.kind = .ran then 0 else 1)
          ∧ u.tables = s.tables) ∧
    (s.sup.engine = .halted → s.jam = true → EndsOnLine (exec .clearFault s) fun u =>
      u = answer f 0x34 .stillActive s.faultBlock { setInbound rest s with unstated := u.unstated }) ∧
    (s.sup.engine ≠ .halted → exec .clearFault s = .next (finishLine (answer f 0x34 .refusedState [] (setInbound rest s))))

/-- R178, R180, R181, R183: a raising makes its condition pending with the new detail, changes no mask flag, and owes a frame
when the condition becomes pending from clear unmasked. NOTICE_ACK clears the named pending flags and what they owe;
NOTICE_MASK replaces the mask. Each answers with the set as it stood. ATTN is active exactly when some pending condition is
unmasked and no full reset holds the engine. -/
def Obligations.NoticeFlagsAndAttnFollow : Prop :=
  (∀ (c : Condition) (detail : Nat) (s : State),
    raiseNotice c detail s = { s with notices := s.notices.set c.index (s.notices[c.index].raised detail) }) ∧
  (∀ (cell : NoticeCell) (detail : Nat), cell.raised detail = { cell with
    pending := true, detail := detail, owed := cell.owed || (!cell.pending && !cell.masked) }) ∧
  (∀ s : State, s.attn = true ↔
    s.held = false ∧ ∃ i : Fin 11, s.notices[i].pending = true ∧ s.notices[i].masked = false) ∧
  (∀ (s : State) (f : InFrame) (rest : List InFrame) (set : Nat), set < 2048 → f.payload = bytesOf 2 set →
    (Serves s .noticeAck f rest → EndsOnLine (exec .noticeAck s) fun u =>
      (∀ i : Fin 11, u.notices[i] = if set.testBit i then { s.notices[i] with pending := false, owed := false }
          else s.notices[i])
        ∧ u.ltx.outbound = s.ltx.outbound ++
            [{ tag := f.tag, body := .reply 0x40 .done (bytesOf 2 s.pendingWord), flags := none }]
        ∧ u.sup = s.sup ∧ u.tracker = s.tracker ∧ u.outlets = s.outlets ∧ u.tables = s.tables) ∧
    (Serves s .noticeMask f rest → EndsOnLine (exec .noticeMask s) fun u =>
      (∀ i : Fin 11, u.notices[i] = { s.notices[i] with
          masked := set.testBit i
          owed := if set.testBit i then false
            else s.notices[i].owed || (s.notices[i].masked && s.notices[i].pending) })
        ∧ u.ltx.outbound = s.ltx.outbound ++
            [{ tag := f.tag, body := .reply 0x41 .done (bytesOf 2 s.maskWord), flags := none }]
        ∧ u.sup = s.sup ∧ u.tracker = s.tracker ∧ u.outlets = s.outlets ∧ u.tables = s.tables))

/-- R169, R172, R179: an unassigned node takes an address 0 to 3; an assigned one refuses every NODE_ASSIGN of the right
length. A frame whose KIND the engine does not take is answered with UNKNOWN_KIND and changes nothing else. -/
def Obligations.NodeAssignAndUnknownKindAreAnswered : Prop :=
  (∀ (s : State) (f : InFrame) (rest : List InFrame) (b : Byte), Serves s .nodeAssign f rest → f.payload = [b] →
    (∀ a : Fin 4, s.lrx.nodeAddress = none → b.toNat = a.val →
      EndsOnLine (exec .nodeAssign s) fun u =>
        u.lrx.nodeAddress = some a ∧ u.lrx.inbound = rest
          ∧ u.ltx.outbound = s.ltx.outbound ++ [{ tag := f.tag, body := .reply 0x42 .done [b], flags := none }]) ∧
    (∀ a : Fin 4, s.lrx.nodeAddress = some a →
      exec .nodeAssign s = .next (finishLine (answer f 0x42 .refusedState [] (setInbound rest s)))) ∧
    (s.lrx.nodeAddress = none → 3 < b.toNat →
      exec .nodeAssign s = .next (finishLine (answer f 0x42 .badField [1] (setInbound rest s))))) ∧
  (∀ (s : State) (f : InFrame) (rest : List InFrame), s.held = false → s.lrx.inbound = f :: rest →
    RequestKind.ofByte f.kind = none → s.lrx.urgent = [] → s.ltx.outbound.length ≤ 31 →
    exec .unknownKind s = .next (finishLine (answer f f.kind .unknownKind [] (setInbound rest s))))

/-! ### The line -/

/-- R170, R171: the end of a transmission frees the head's place, and the next frame begins as the last one ends, without a
gap. At a full outbound queue the one place goes to the oldest waiting HALT reply, else to the Dispatcher's head, else to a
SUMMARY stage in CLEARING, else to the owed notice of the lowest number. A LOT_ABORT head needs two places and keeps waiting.
A frame that begins is stamped with the three flags and ATTN, and the flags are cleared. The end of a cut frame frees no
place (its character time is the model's reckoning, log 15). That it is all one event is the model's reading (log 16). -/
def Obligations.TransmissionEndFreesPlace : Prop :=
  (∀ (s v : State) (began ends : Nat), s.held = false → s.ltx.txd = .sending began ends →
    v = { s with now := max s.now (ends / 8), ltx := { s.ltx with outbound := s.ltx.outbound.tail, txd := .idle ends } } →
    (∀ r waiting, s.lrx.urgent = r :: waiting → s.ltx.outbound.length = 32 →
      exec .transmissionEnd s = .next (startTransmission { v with
        lrx := { s.lrx with urgent := waiting }, ltx := { v.ltx with outbound := v.ltx.outbound ++ [r] } })) ∧
    (∀ f rest, s.lrx.urgent = [] → s.lrx.inbound = f :: rest → s.ltx.outbound.length = 32 → f.kind ≠ 0x01 →
      f.kind ≠ 0x32 → exec .transmissionEnd s = .next (startTransmission (queueOwed (summaryStep
        (serveHead (effectOf (RequestKind.ofByte f.kind)) f rest v))))) ∧
    (s.lrx.urgent = [] → s.ltx.outbound.length = 32 →
      (s.lrx.inbound = [] ∨ ∃ f rest, s.lrx.inbound = f :: rest ∧ f.kind = 0x32) →
      (∀ c, s.sup.clearance = some c → c.stage = .summary → s.sup.engine = .clearing →
        exec .transmissionEnd s = .next (startTransmission (closeLot c.kind.endKind v))) ∧
      ((∀ c, s.sup.clearance = some c → c.stage ≠ .summary ∨ s.sup.engine ≠ .clearing) →
        (∀ c : Condition, s.notices[c.index].owed = true →
          (∀ c' : Condition, c'.index < c.index → s.notices[c'.index].owed = false) →
          exec .transmissionEnd s = .next (startTransmission { v with
            notices := s.notices.set c.index { s.notices[c.index] with owed := false }
            ltx := { v.ltx with outbound := v.ltx.outbound ++
              [{ tag := 0, body := .notice c s.notices[c.index].detail, flags := none }] } })))) ∧
    (s.lrx.urgent = [] → s.lrx.inbound = [] → s.sup.clearance = none → (∀ i : Fin 11, s.notices[i].owed = false) →
      exec .transmissionEnd s = .next (startTransmission v))) ∧
  (∀ (s : State) (ends : Nat), s.held = false → s.ltx.txd = .cut ends →
    exec .transmissionEnd s = .next (startTransmission { s with
      now := max s.now (ends / 8), ltx := { s.ltx with txd := .idle ends } })) ∧
  (∀ (v : State) (g : OutFrame) (more : List OutFrame) (since : Nat), v.ltx.outbound = g :: more →
    v.ltx.txd = .idle since → (startTransmission v).ltx =
      { outbound := { g with flags := some (flagsByte v.ltx.reject v.ltx.overrun v.ltx.lost v.attn) } :: more
        txd := .sending (max (8 * v.now) since)
          (max (8 * v.now) since + (7 + g.body.payload.length) * v.rate.charTicks)
        reject := false, overrun := false, lost := false })

/-- R154, R155, R166, R169, R170, R182: a waiting HALT reply takes a place; an owed notice takes one when no other producer
waits, within the event that owes it too; a SORT_REPORT does not wait: below 28 frames it is admitted, else it sets LOST; the
SUMMARY stage in CLEARING with a place closes the lot. Which producers wait, and when in the event that is judged, is the
model's reading and choice (log 17, log 32). -/
def Obligations.WaitingProducersTakePlaces : Prop :=
  (∀ s : State, s.held = false → s.ltx.outbound.length < 32 →
    (∀ r waiting, s.lrx.urgent = r :: waiting → exec .urgentReply s = .next (finishLine { s with
      lrx := { s.lrx with urgent := waiting }, ltx := { s.ltx with outbound := s.ltx.outbound ++ [r] } })) ∧
    (∀ c, s.producerWaits = false → s.notices[c.index].owed = true →
      (∀ c' : Condition, c'.index < c.index → s.notices[c'.index].owed = false) →
      exec .notice s = .next (startTransmission { s with
        notices := s.notices.set c.index { s.notices[c.index] with owed := false }
        ltx := { s.ltx with outbound := s.ltx.outbound ++
          [{ tag := 0, body := .notice c s.notices[c.index].detail, flags := none }] } }))) ∧
  (∀ (f : InFrame) (s : State), headServed f s = true ↔
    f.kind = 0x01 ∨ (s.lrx.urgent = [] ∧ s.ltx.outbound.length ≤ if f.kind = 0x32 then 30 else 31)) ∧
  (∀ s : State, s.producerWaits = true ↔
    s.lrx.urgent ≠ [] ∨ (∃ f rest, s.lrx.inbound = f :: rest ∧ headServed f s = false) ∨
      (s.stage = some .summary ∧ s.sup.engine = .clearing)) ∧
  (∀ s : State,
    (s.producerWaits = true ∨ 32 ≤ s.ltx.outbound.length ∨ (∀ i : Fin 11, s.notices[i].owed = false) →
      finishLine s = startTransmission s) ∧
    (∀ c : Condition, s.producerWaits = false → s.ltx.outbound.length < 32 → s.notices[c.index].owed = true →
      (∀ i : Fin 11, i ≠ c.index → s.notices[i].owed = false) →
      finishLine s = startTransmission { s with
        notices := s.notices.set c.index { s.notices[c.index] with owed := false }
        ltx := { s.ltx with outbound := s.ltx.outbound ++
          [{ tag := 0, body := .notice c s.notices[c.index].detail, flags := none }] } })) ∧
  (∀ (l : LineTransmitter) (r : SortReport), l.offer r = if l.outbound.length < 28 then
      { l with outbound := l.outbound ++ [{ tag := 0, body := .sortReport r, flags := none }] }
    else { l with lost := true }) ∧
  (∀ (s : State) (c : Clearance), s.held = false → s.sup.clearance = some c → c.stage = .summary →
    s.sup.engine = .clearing → s.ltx.outbound.length < 32 →
    EndsOnLine (exec .summaryStage s) fun u =>
      u.sup = { s.sup with clearance := none, engine := .ready }
        ∧ u.tracker = { s.tracker with ring := [], stack := [], checkTimer := none }
        ∧ (∀ n : Fin 16, u.outlets[n] = { s.outlets[n] with slot := .free, drive := .quiet })
        ∧ u.ltx.outbound = s.ltx.outbound ++ [{ tag := 0, flags := none, body := .lotSummary (s.lotSummary
            (if c.kind = .ran then .cleared else .abandoned)) }]
        ∧ u.notices[(10 : Fin 11)] = s.notices[(10 : Fin 11)].raised (if c.kind = .ran then 0 else 1))

/-- R163, R123: in HUNT a SYNC begins a held frame and any other byte is passed over; in FRAME a byte that begins in time and
neither gives a LEN above 56 nor ends the frame is held. From its end the gap timer runs, under the limit in force then. A
byte that begins after the gap has run out comes after the GAP reject, and its search. A character begins one character time
before the end that its command gives (the model's choice, log 7). -/
def Obligations.CharactersAreAssembled : Prop :=
  ∀ (time : Nat) (b : Byte) (s : State), s.held = false →
    (s.lrx.assembler = .hunt → b = 0xC3 → exec (.characterReceived time b) s = .next (finishLine { s with
      now := max s.now time
      lrx := { s.lrx with assembler := .frame [0xC3], gapEnd := max s.now time + s.link.gapLimit,
                          gapTimer := some (max s.now time + s.link.gapLimit) } })) ∧
    (s.lrx.assembler = .hunt → b ≠ 0xC3 → exec (.characterReceived time b) s = .next (finishLine (s.hunting time))) ∧
    (∀ frame, s.lrx.assembler = .frame frame → s.inTime time → Incomplete (frame ++ [b]) →
      exec (.characterReceived time b) s = .next (finishLine { s with
        now := max s.now time
        lrx := { s.lrx with assembler := .frame (frame ++ [b]), gapEnd := max s.now time + s.link.gapLimit,
                            gapTimer := some (max s.now time + s.link.gapLimit) } })) ∧
    (∀ frame t, s.lrx.assembler = .frame frame → frame ≠ [] → ¬ s.inTime time →
      exec .gapTimer s = .next t → exec (.characterReceived time b) s = exec (.characterReceived time b) t)

/-- R161, R165, R167, R168: a frame whose last CRC byte arrives good and in time (by its start, log 7), sent to this node and
neither urgent nor a broadcast MEAS, or a broadcast NODE_ASSIGN at an unassigned node, joins the inbound queue, or is lost to
overrun when the queue holds 16. -/
def Obligations.GoodFrameJoinsInboundQueue : Prop :=
  ∀ (time : Nat) (b : Byte) (s : State) (dest kind tag : Byte) (payload frame : List Byte),
    s.held = false → payload.length ≤ 56 →
    (∃ a : Fin 4, s.lrx.nodeAddress = some a ∧ (dest = BitVec.ofNat 8 a.val ∨ dest = 0xFF ∧ kind ≠ 0x01)) ∨
      (s.lrx.nodeAddress = none ∧ dest = 0xFF ∧ kind = 0x42) →
    kind ≠ 0x50 → kind ≠ 0x51 →
    s.lrx.assembler = .frame frame → s.inTime time → frame ++ [b] = frameBytes dest kind tag payload →
    EndsOnLine (exec (.frameComplete time b) s) fun u =>
      u.lrx.assembler = .hunt ∧ u.lrx.gapTimer = none
        ∧ (s.lrx.inbound.length < 16 →
            u.lrx.inbound = s.lrx.inbound ++ [{ dest := dest, kind := kind, tag := tag, payload := payload }]
              ∧ u.lrx.hold = holdLevel s.link (s.lrx.inbound.length + 1) s.lrx.hold ∧ u.ltx = s.ltx)
        ∧ (16 ≤ s.lrx.inbound.length → u.lrx.inbound = s.lrx.inbound ∧ u.ltx = { s.ltx with overrun := true }
            ∧ u.notices[(7 : Fin 11)] = s.notices[(7 : Fin 11)].raised 5)

/-- R160, R164 to R166: what else becomes of a good frame (in time by the start of its last byte, log 7). A frame to another
node, and at an unassigned node every frame but a broadcast NODE_ASSIGN, is ignored. A kept HALT or CORE_RESET with LEN 0
acts as the command does. One with another LEN is a LENGTH reject (that its bytes are searched like a reject's is the model's
reading, log 8; here they hold no other SYNC). A broadcast MEAS is discarded. -/
def Obligations.GoodFrameIsActedOnOrSetAside : Prop :=
  ∀ (time : Nat) (b : Byte) (s : State) (dest kind tag : Byte) (payload frame : List Byte),
    s.held = false → payload.length ≤ 56 → s.lrx.assembler = .frame frame → s.inTime time →
    frame ++ [b] = frameBytes dest kind tag payload →
    ((∃ a : Fin 4, s.lrx.nodeAddress = some a ∧ dest ≠ BitVec.ofNat 8 a.val ∧ dest ≠ 0xFF) ∨
        (s.lrx.nodeAddress = none ∧ ¬ (dest = 0xFF ∧ kind = 0x42)) →
      exec (.frameComplete time b) s = .next (finishLine (s.hunting time))) ∧
    (∀ a : Fin 4, s.lrx.nodeAddress = some a → dest = BitVec.ofNat 8 a.val ∨ dest = 0xFF →
      (kind = 0x50 → payload = [] → exec (.frameComplete time b) s = exec (.halt tag) (s.hunting time)) ∧
      (kind = 0x51 → payload = [] → exec (.frameComplete time b) s = exec .coreReset (s.hunting time)) ∧
      (kind = 0x50 ∨ kind = 0x51 → payload ≠ [] → 0xC3 ∉ (frame ++ [b]).tail →
        EndsOnLine (exec (.frameComplete time b) s) fun u =>
          u.lrx = (s.hunting time).lrx ∧ u.ltx = { s.ltx with reject := true } ∧ u.sup = s.sup ∧ u.outlets = s.outlets
            ∧ u.notices[(7 : Fin 11)] = s.notices[(7 : Fin 11)].raised 0) ∧
      (kind = 0x01 → dest = 0xFF →
        EndsOnLine (exec (.frameComplete time b) s) fun u =>
          u.lrx = (s.hunting time).lrx ∧ u.ltx = s.ltx ∧ u.sup = { s.sup with lastDiscard := some .broadcast }
            ∧ u.tracker = s.tracker ∧ u.notices[(5 : Fin 11)] = s.notices[(5 : Fin 11)].raised 8))

/-- R164: every reject sets REJECT, raises LINK_ERROR with its kind and searches the bytes of its row again, as if they had just
come: without another SYNC the assembler is left in HUNT, and bytes from the first SYNC on that make no whole frame are held,
their gap timed from the end of the last character. A break drops every held byte. That a character with a framing error counts
as that last character, and that a character begins one character time before the end that its command gives, are the model's
choices (log 7), as are the time base (log 1) and its move to the gap timer's deadline (log 2). -/
def Obligations.RejectsDiscardHeldFrame : Prop :=
  ∀ (time now : Nat) (s : State) (frame bytes : List Byte) (kept : Assembler) (c : Instr) (trouble : LinkTrouble) (gapEnd : Nat),
    s.held = false → s.lrx.assembler = .frame frame →
    (∃ expires, c = .gapTimer ∧ s.lrx.gapTimer = some expires ∧ now = max s.now expires ∧ trouble = .gap
        ∧ bytes = frame.tail ∧ gapEnd = s.lrx.gapEnd) ∨
      (s.inTime time ∧ now = max s.now time ∧ gapEnd = now + s.link.gapLimit ∧
        ((c = .frameReject time .framing ∧ trouble = .framing ∧ bytes = frame.tail) ∨
          (c = .frameReject time .lineBreak ∧ trouble = .lineBreak ∧ bytes = []) ∨
          (∃ len : Byte, c = .frameReject time (.length len) ∧ frame.length = 4 ∧ 56 < len.toNat ∧ trouble = .length
            ∧ bytes = frame.tail ++ [len]) ∨
          (∃ (b sync dest kind tag : Byte) (payload crc : List Byte), c = .frameComplete time b ∧ payload.length ≤ 56
            ∧ frame ++ [b] = sync :: dest :: kind :: tag :: BitVec.ofNat 8 payload.length :: payload ++ crc
            ∧ crc.length = 2
            ∧ crc ≠ bytesOf 2 (frameCrc (dest :: kind :: tag :: BitVec.ofNat 8 payload.length :: payload)).toNat
            ∧ trouble = .crc ∧ bytes = frame.tail ++ [b]))) →
    (kept = .hunt ∧ 0xC3 ∉ bytes) ∨
      (∃ pre post, bytes = pre ++ 0xC3 :: post ∧ 0xC3 ∉ pre ∧ Incomplete (0xC3 :: post) ∧ kept = .frame (0xC3 :: post)) →
    exec c s = .next (finishLine (raiseNotice .linkError trouble.code { s with
      now := now
      lrx := { s.lrx with assembler := kept, gapTimer := if kept = .hunt then none else some gapEnd, gapEnd := gapEnd }
      ltx := { s.ltx with reject := true } }))

end
end

