-- ==== Sys2Proof/Laws/State.lean ====
section
/-! SUPPORT. For each named update, the fields of State that it leaves as they are. -/

namespace Sys2Proof.Machine

@[simp] theorem advanceTo_held (time : Nat) (s : State) : (advanceTo time s).held = s.held := by simp [advanceTo]
@[simp] theorem advanceTo_jam (time : Nat) (s : State) : (advanceTo time s).jam = s.jam := by simp [advanceTo]
@[simp] theorem advanceTo_rate (time : Nat) (s : State) : (advanceTo time s).rate = s.rate := by simp [advanceTo]
@[simp] theorem advanceTo_tracker (time : Nat) (s : State) : (advanceTo time s).tracker = s.tracker := by simp [advanceTo]
@[simp] theorem advanceTo_outlets (time : Nat) (s : State) : (advanceTo time s).outlets = s.outlets := by simp [advanceTo]
@[simp] theorem advanceTo_sup (time : Nat) (s : State) : (advanceTo time s).sup = s.sup := by simp [advanceTo]
@[simp] theorem advanceTo_tables (time : Nat) (s : State) : (advanceTo time s).tables = s.tables := by simp [advanceTo]
@[simp] theorem advanceTo_notices (time : Nat) (s : State) : (advanceTo time s).notices = s.notices := by simp [advanceTo]
@[simp] theorem advanceTo_lrx (time : Nat) (s : State) : (advanceTo time s).lrx = s.lrx := by simp [advanceTo]
@[simp] theorem advanceTo_ltx (time : Nat) (s : State) : (advanceTo time s).ltx = s.ltx := by simp [advanceTo]
@[simp] theorem advanceTo_unstated (time : Nat) (s : State) : (advanceTo time s).unstated = s.unstated := by simp [advanceTo]
@[simp] theorem advanceTo_pending (time : Nat) (s : State) : (advanceTo time s).pending = s.pending := by simp [advanceTo]

@[simp] theorem judgeHold_now (s : State) : (judgeHold s).now = s.now := by simp [judgeHold]
@[simp] theorem judgeHold_held (s : State) : (judgeHold s).held = s.held := by simp [judgeHold]
@[simp] theorem judgeHold_jam (s : State) : (judgeHold s).jam = s.jam := by simp [judgeHold]
@[simp] theorem judgeHold_rate (s : State) : (judgeHold s).rate = s.rate := by simp [judgeHold]
@[simp] theorem judgeHold_tracker (s : State) : (judgeHold s).tracker = s.tracker := by simp [judgeHold]
@[simp] theorem judgeHold_outlets (s : State) : (judgeHold s).outlets = s.outlets := by simp [judgeHold]
@[simp] theorem judgeHold_sup (s : State) : (judgeHold s).sup = s.sup := by simp [judgeHold]
@[simp] theorem judgeHold_tables (s : State) : (judgeHold s).tables = s.tables := by simp [judgeHold]
@[simp] theorem judgeHold_notices (s : State) : (judgeHold s).notices = s.notices := by simp [judgeHold]
@[simp] theorem judgeHold_ltx (s : State) : (judgeHold s).ltx = s.ltx := by simp [judgeHold]
@[simp] theorem judgeHold_unstated (s : State) : (judgeHold s).unstated = s.unstated := by simp [judgeHold]
@[simp] theorem judgeHold_pending (s : State) : (judgeHold s).pending = s.pending := by simp [judgeHold]

@[simp] theorem setInbound_now (fs : List InFrame) (s : State) : (setInbound fs s).now = s.now := by simp [setInbound]
@[simp] theorem setInbound_held (fs : List InFrame) (s : State) : (setInbound fs s).held = s.held := by simp [setInbound]
@[simp] theorem setInbound_jam (fs : List InFrame) (s : State) : (setInbound fs s).jam = s.jam := by simp [setInbound]
@[simp] theorem setInbound_rate (fs : List InFrame) (s : State) : (setInbound fs s).rate = s.rate := by simp [setInbound]
@[simp] theorem setInbound_tracker (fs : List InFrame) (s : State) : (setInbound fs s).tracker = s.tracker := by simp [setInbound]
@[simp] theorem setInbound_outlets (fs : List InFrame) (s : State) : (setInbound fs s).outlets = s.outlets := by simp [setInbound]
@[simp] theorem setInbound_sup (fs : List InFrame) (s : State) : (setInbound fs s).sup = s.sup := by simp [setInbound]
@[simp] theorem setInbound_tables (fs : List InFrame) (s : State) : (setInbound fs s).tables = s.tables := by simp [setInbound]
@[simp] theorem setInbound_notices (fs : List InFrame) (s : State) : (setInbound fs s).notices = s.notices := by simp [setInbound]
@[simp] theorem setInbound_ltx (fs : List InFrame) (s : State) : (setInbound fs s).ltx = s.ltx := by simp [setInbound]
@[simp] theorem setInbound_unstated (fs : List InFrame) (s : State) : (setInbound fs s).unstated = s.unstated := by simp [setInbound]
@[simp] theorem setInbound_pending (fs : List InFrame) (s : State) : (setInbound fs s).pending = s.pending := by simp [setInbound]

@[simp] theorem raiseNotice_now (c : Condition) (d : Nat) (s : State) : (raiseNotice c d s).now = s.now := by simp [raiseNotice]
@[simp] theorem raiseNotice_held (c : Condition) (d : Nat) (s : State) : (raiseNotice c d s).held = s.held := by simp [raiseNotice]
@[simp] theorem raiseNotice_jam (c : Condition) (d : Nat) (s : State) : (raiseNotice c d s).jam = s.jam := by simp [raiseNotice]
@[simp] theorem raiseNotice_rate (c : Condition) (d : Nat) (s : State) : (raiseNotice c d s).rate = s.rate := by simp [raiseNotice]
@[simp] theorem raiseNotice_tracker (c : Condition) (d : Nat) (s : State) : (raiseNotice c d s).tracker = s.tracker := by simp [raiseNotice]
@[simp] theorem raiseNotice_outlets (c : Condition) (d : Nat) (s : State) : (raiseNotice c d s).outlets = s.outlets := by simp [raiseNotice]
@[simp] theorem raiseNotice_sup (c : Condition) (d : Nat) (s : State) : (raiseNotice c d s).sup = s.sup := by simp [raiseNotice]
@[simp] theorem raiseNotice_tables (c : Condition) (d : Nat) (s : State) : (raiseNotice c d s).tables = s.tables := by simp [raiseNotice]
@[simp] theorem raiseNotice_lrx (c : Condition) (d : Nat) (s : State) : (raiseNotice c d s).lrx = s.lrx := by simp [raiseNotice]
@[simp] theorem raiseNotice_ltx (c : Condition) (d : Nat) (s : State) : (raiseNotice c d s).ltx = s.ltx := by simp [raiseNotice]
@[simp] theorem raiseNotice_unstated (c : Condition) (d : Nat) (s : State) : (raiseNotice c d s).unstated = s.unstated := by simp [raiseNotice]
@[simp] theorem raiseNotice_pending (c : Condition) (d : Nat) (s : State) : (raiseNotice c d s).pending = s.pending := by simp [raiseNotice]

@[simp] theorem ackNotices_now (set : Nat) (s : State) : (ackNotices set s).now = s.now := by simp [ackNotices]
@[simp] theorem ackNotices_held (set : Nat) (s : State) : (ackNotices set s).held = s.held := by simp [ackNotices]
@[simp] theorem ackNotices_jam (set : Nat) (s : State) : (ackNotices set s).jam = s.jam := by simp [ackNotices]
@[simp] theorem ackNotices_rate (set : Nat) (s : State) : (ackNotices set s).rate = s.rate := by simp [ackNotices]
@[simp] theorem ackNotices_tracker (set : Nat) (s : State) : (ackNotices set s).tracker = s.tracker := by simp [ackNotices]
@[simp] theorem ackNotices_outlets (set : Nat) (s : State) : (ackNotices set s).outlets = s.outlets := by simp [ackNotices]
@[simp] theorem ackNotices_sup (set : Nat) (s : State) : (ackNotices set s).sup = s.sup := by simp [ackNotices]
@[simp] theorem ackNotices_tables (set : Nat) (s : State) : (ackNotices set s).tables = s.tables := by simp [ackNotices]
@[simp] theorem ackNotices_lrx (set : Nat) (s : State) : (ackNotices set s).lrx = s.lrx := by simp [ackNotices]
@[simp] theorem ackNotices_ltx (set : Nat) (s : State) : (ackNotices set s).ltx = s.ltx := by simp [ackNotices]
@[simp] theorem ackNotices_unstated (set : Nat) (s : State) : (ackNotices set s).unstated = s.unstated := by simp [ackNotices]
@[simp] theorem ackNotices_pending (set : Nat) (s : State) : (ackNotices set s).pending = s.pending := by simp [ackNotices]

@[simp] theorem maskNotices_now (set : Nat) (s : State) : (maskNotices set s).now = s.now := by simp [maskNotices]
@[simp] theorem maskNotices_held (set : Nat) (s : State) : (maskNotices set s).held = s.held := by simp [maskNotices]
@[simp] theorem maskNotices_jam (set : Nat) (s : State) : (maskNotices set s).jam = s.jam := by simp [maskNotices]
@[simp] theorem maskNotices_rate (set : Nat) (s : State) : (maskNotices set s).rate = s.rate := by simp [maskNotices]
@[simp] theorem maskNotices_tracker (set : Nat) (s : State) : (maskNotices set s).tracker = s.tracker := by simp [maskNotices]
@[simp] theorem maskNotices_outlets (set : Nat) (s : State) : (maskNotices set s).outlets = s.outlets := by simp [maskNotices]
@[simp] theorem maskNotices_sup (set : Nat) (s : State) : (maskNotices set s).sup = s.sup := by simp [maskNotices]
@[simp] theorem maskNotices_tables (set : Nat) (s : State) : (maskNotices set s).tables = s.tables := by simp [maskNotices]
@[simp] theorem maskNotices_lrx (set : Nat) (s : State) : (maskNotices set s).lrx = s.lrx := by simp [maskNotices]
@[simp] theorem maskNotices_ltx (set : Nat) (s : State) : (maskNotices set s).ltx = s.ltx := by simp [maskNotices]
@[simp] theorem maskNotices_unstated (set : Nat) (s : State) : (maskNotices set s).unstated = s.unstated := by simp [maskNotices]
@[simp] theorem maskNotices_pending (set : Nat) (s : State) : (maskNotices set s).pending = s.pending := by simp [maskNotices]

@[simp] theorem queueOwed_now (s : State) : (queueOwed s).now = s.now := by simp [queueOwed]
@[simp] theorem queueOwed_held (s : State) : (queueOwed s).held = s.held := by simp [queueOwed]
@[simp] theorem queueOwed_jam (s : State) : (queueOwed s).jam = s.jam := by simp [queueOwed]
@[simp] theorem queueOwed_rate (s : State) : (queueOwed s).rate = s.rate := by simp [queueOwed]
@[simp] theorem queueOwed_tracker (s : State) : (queueOwed s).tracker = s.tracker := by simp [queueOwed]
@[simp] theorem queueOwed_outlets (s : State) : (queueOwed s).outlets = s.outlets := by simp [queueOwed]
@[simp] theorem queueOwed_sup (s : State) : (queueOwed s).sup = s.sup := by simp [queueOwed]
@[simp] theorem queueOwed_tables (s : State) : (queueOwed s).tables = s.tables := by simp [queueOwed]
@[simp] theorem queueOwed_lrx (s : State) : (queueOwed s).lrx = s.lrx := by simp [queueOwed]
@[simp] theorem queueOwed_unstated (s : State) : (queueOwed s).unstated = s.unstated := by simp [queueOwed]
@[simp] theorem queueOwed_pending (s : State) : (queueOwed s).pending = s.pending := by simp [queueOwed]

@[simp] theorem startTransmission_now (s : State) : (startTransmission s).now = s.now := by simp [startTransmission]
@[simp] theorem startTransmission_held (s : State) : (startTransmission s).held = s.held := by simp [startTransmission]
@[simp] theorem startTransmission_jam (s : State) : (startTransmission s).jam = s.jam := by simp [startTransmission]
@[simp] theorem startTransmission_rate (s : State) : (startTransmission s).rate = s.rate := by simp [startTransmission]
@[simp] theorem startTransmission_tracker (s : State) : (startTransmission s).tracker = s.tracker := by simp [startTransmission]
@[simp] theorem startTransmission_outlets (s : State) : (startTransmission s).outlets = s.outlets := by simp [startTransmission]
@[simp] theorem startTransmission_sup (s : State) : (startTransmission s).sup = s.sup := by simp [startTransmission]
@[simp] theorem startTransmission_tables (s : State) : (startTransmission s).tables = s.tables := by simp [startTransmission]
@[simp] theorem startTransmission_notices (s : State) : (startTransmission s).notices = s.notices := by simp [startTransmission]
@[simp] theorem startTransmission_lrx (s : State) : (startTransmission s).lrx = s.lrx := by simp [startTransmission]
@[simp] theorem startTransmission_unstated (s : State) : (startTransmission s).unstated = s.unstated := by simp [startTransmission]
@[simp] theorem startTransmission_pending (s : State) : (startTransmission s).pending = s.pending := by simp [startTransmission]

@[simp] theorem modOutlet_now (n : Fin 16) (f : Outlet → Outlet) (s : State) : (modOutlet n f s).now = s.now := by simp [modOutlet]
@[simp] theorem modOutlet_held (n : Fin 16) (f : Outlet → Outlet) (s : State) : (modOutlet n f s).held = s.held := by simp [modOutlet]
@[simp] theorem modOutlet_jam (n : Fin 16) (f : Outlet → Outlet) (s : State) : (modOutlet n f s).jam = s.jam := by simp [modOutlet]
@[simp] theorem modOutlet_rate (n : Fin 16) (f : Outlet → Outlet) (s : State) : (modOutlet n f s).rate = s.rate := by simp [modOutlet]
@[simp] theorem modOutlet_tracker (n : Fin 16) (f : Outlet → Outlet) (s : State) : (modOutlet n f s).tracker = s.tracker := by simp [modOutlet]
@[simp] theorem modOutlet_sup (n : Fin 16) (f : Outlet → Outlet) (s : State) : (modOutlet n f s).sup = s.sup := by simp [modOutlet]
@[simp] theorem modOutlet_tables (n : Fin 16) (f : Outlet → Outlet) (s : State) : (modOutlet n f s).tables = s.tables := by simp [modOutlet]
@[simp] theorem modOutlet_notices (n : Fin 16) (f : Outlet → Outlet) (s : State) : (modOutlet n f s).notices = s.notices := by simp [modOutlet]
@[simp] theorem modOutlet_lrx (n : Fin 16) (f : Outlet → Outlet) (s : State) : (modOutlet n f s).lrx = s.lrx := by simp [modOutlet]
@[simp] theorem modOutlet_ltx (n : Fin 16) (f : Outlet → Outlet) (s : State) : (modOutlet n f s).ltx = s.ltx := by simp [modOutlet]
@[simp] theorem modOutlet_unstated (n : Fin 16) (f : Outlet → Outlet) (s : State) : (modOutlet n f s).unstated = s.unstated := by simp [modOutlet]
@[simp] theorem modOutlet_pending (n : Fin 16) (f : Outlet → Outlet) (s : State) : (modOutlet n f s).pending = s.pending := by simp [modOutlet]

@[simp] theorem mapOutlets_now (f : Fin 16 → Outlet → Outlet) (s : State) : (mapOutlets f s).now = s.now := by simp [mapOutlets]
@[simp] theorem mapOutlets_held (f : Fin 16 → Outlet → Outlet) (s : State) : (mapOutlets f s).held = s.held := by simp [mapOutlets]
@[simp] theorem mapOutlets_jam (f : Fin 16 → Outlet → Outlet) (s : State) : (mapOutlets f s).jam = s.jam := by simp [mapOutlets]
@[simp] theorem mapOutlets_rate (f : Fin 16 → Outlet → Outlet) (s : State) : (mapOutlets f s).rate = s.rate := by simp [mapOutlets]
@[simp] theorem mapOutlets_tracker (f : Fin 16 → Outlet → Outlet) (s : State) : (mapOutlets f s).tracker = s.tracker := by simp [mapOutlets]
@[simp] theorem mapOutlets_sup (f : Fin 16 → Outlet → Outlet) (s : State) : (mapOutlets f s).sup = s.sup := by simp [mapOutlets]
@[simp] theorem mapOutlets_tables (f : Fin 16 → Outlet → Outlet) (s : State) : (mapOutlets f s).tables = s.tables := by simp [mapOutlets]
@[simp] theorem mapOutlets_notices (f : Fin 16 → Outlet → Outlet) (s : State) : (mapOutlets f s).notices = s.notices := by simp [mapOutlets]
@[simp] theorem mapOutlets_lrx (f : Fin 16 → Outlet → Outlet) (s : State) : (mapOutlets f s).lrx = s.lrx := by simp [mapOutlets]
@[simp] theorem mapOutlets_ltx (f : Fin 16 → Outlet → Outlet) (s : State) : (mapOutlets f s).ltx = s.ltx := by simp [mapOutlets]
@[simp] theorem mapOutlets_unstated (f : Fin 16 → Outlet → Outlet) (s : State) : (mapOutlets f s).unstated = s.unstated := by simp [mapOutlets]
@[simp] theorem mapOutlets_pending (f : Fin 16 → Outlet → Outlet) (s : State) : (mapOutlets f s).pending = s.pending := by simp [mapOutlets]

@[simp] theorem setRing_now (ring : List PocketRecord) (s : State) : (setRing ring s).now = s.now := by simp [setRing]
@[simp] theorem setRing_held (ring : List PocketRecord) (s : State) : (setRing ring s).held = s.held := by simp [setRing]
@[simp] theorem setRing_jam (ring : List PocketRecord) (s : State) : (setRing ring s).jam = s.jam := by simp [setRing]
@[simp] theorem setRing_rate (ring : List PocketRecord) (s : State) : (setRing ring s).rate = s.rate := by simp [setRing]
@[simp] theorem setRing_outlets (ring : List PocketRecord) (s : State) : (setRing ring s).outlets = s.outlets := by simp [setRing]
@[simp] theorem setRing_sup (ring : List PocketRecord) (s : State) : (setRing ring s).sup = s.sup := by simp [setRing]
@[simp] theorem setRing_tables (ring : List PocketRecord) (s : State) : (setRing ring s).tables = s.tables := by simp [setRing]
@[simp] theorem setRing_notices (ring : List PocketRecord) (s : State) : (setRing ring s).notices = s.notices := by simp [setRing]
@[simp] theorem setRing_lrx (ring : List PocketRecord) (s : State) : (setRing ring s).lrx = s.lrx := by simp [setRing]
@[simp] theorem setRing_ltx (ring : List PocketRecord) (s : State) : (setRing ring s).ltx = s.ltx := by simp [setRing]
@[simp] theorem setRing_unstated (ring : List PocketRecord) (s : State) : (setRing ring s).unstated = s.unstated := by simp [setRing]
@[simp] theorem setRing_pending (ring : List PocketRecord) (s : State) : (setRing ring s).pending = s.pending := by simp [setRing]

@[simp] theorem modRing_now (k : Nat) (f : PocketRecord → PocketRecord) (s : State) : (modRing k f s).now = s.now := by simp [modRing]
@[simp] theorem modRing_held (k : Nat) (f : PocketRecord → PocketRecord) (s : State) : (modRing k f s).held = s.held := by simp [modRing]
@[simp] theorem modRing_jam (k : Nat) (f : PocketRecord → PocketRecord) (s : State) : (modRing k f s).jam = s.jam := by simp [modRing]
@[simp] theorem modRing_rate (k : Nat) (f : PocketRecord → PocketRecord) (s : State) : (modRing k f s).rate = s.rate := by simp [modRing]
@[simp] theorem modRing_outlets (k : Nat) (f : PocketRecord → PocketRecord) (s : State) : (modRing k f s).outlets = s.outlets := by simp [modRing]
@[simp] theorem modRing_sup (k : Nat) (f : PocketRecord → PocketRecord) (s : State) : (modRing k f s).sup = s.sup := by simp [modRing]
@[simp] theorem modRing_tables (k : Nat) (f : PocketRecord → PocketRecord) (s : State) : (modRing k f s).tables = s.tables := by simp [modRing]
@[simp] theorem modRing_notices (k : Nat) (f : PocketRecord → PocketRecord) (s : State) : (modRing k f s).notices = s.notices := by simp [modRing]
@[simp] theorem modRing_lrx (k : Nat) (f : PocketRecord → PocketRecord) (s : State) : (modRing k f s).lrx = s.lrx := by simp [modRing]
@[simp] theorem modRing_ltx (k : Nat) (f : PocketRecord → PocketRecord) (s : State) : (modRing k f s).ltx = s.ltx := by simp [modRing]
@[simp] theorem modRing_unstated (k : Nat) (f : PocketRecord → PocketRecord) (s : State) : (modRing k f s).unstated = s.unstated := by simp [modRing]
@[simp] theorem modRing_pending (k : Nat) (f : PocketRecord → PocketRecord) (s : State) : (modRing k f s).pending = s.pending := by simp [modRing]

@[simp] theorem modStack_now (d : Nat) (f : PocketRecord → PocketRecord) (s : State) : (modStack d f s).now = s.now := by simp [modStack]
@[simp] theorem modStack_held (d : Nat) (f : PocketRecord → PocketRecord) (s : State) : (modStack d f s).held = s.held := by simp [modStack]
@[simp] theorem modStack_jam (d : Nat) (f : PocketRecord → PocketRecord) (s : State) : (modStack d f s).jam = s.jam := by simp [modStack]
@[simp] theorem modStack_rate (d : Nat) (f : PocketRecord → PocketRecord) (s : State) : (modStack d f s).rate = s.rate := by simp [modStack]
@[simp] theorem modStack_outlets (d : Nat) (f : PocketRecord → PocketRecord) (s : State) : (modStack d f s).outlets = s.outlets := by simp [modStack]
@[simp] theorem modStack_sup (d : Nat) (f : PocketRecord → PocketRecord) (s : State) : (modStack d f s).sup = s.sup := by simp [modStack]
@[simp] theorem modStack_tables (d : Nat) (f : PocketRecord → PocketRecord) (s : State) : (modStack d f s).tables = s.tables := by simp [modStack]
@[simp] theorem modStack_notices (d : Nat) (f : PocketRecord → PocketRecord) (s : State) : (modStack d f s).notices = s.notices := by simp [modStack]
@[simp] theorem modStack_lrx (d : Nat) (f : PocketRecord → PocketRecord) (s : State) : (modStack d f s).lrx = s.lrx := by simp [modStack]
@[simp] theorem modStack_ltx (d : Nat) (f : PocketRecord → PocketRecord) (s : State) : (modStack d f s).ltx = s.ltx := by simp [modStack]
@[simp] theorem modStack_unstated (d : Nat) (f : PocketRecord → PocketRecord) (s : State) : (modStack d f s).unstated = s.unstated := by simp [modStack]
@[simp] theorem modStack_pending (d : Nat) (f : PocketRecord → PocketRecord) (s : State) : (modStack d f s).pending = s.pending := by simp [modStack]

@[simp] theorem forget_now (name : RecordName) (s : State) : (forget name s).now = s.now := by simp [forget]
@[simp] theorem forget_held (name : RecordName) (s : State) : (forget name s).held = s.held := by simp [forget]
@[simp] theorem forget_jam (name : RecordName) (s : State) : (forget name s).jam = s.jam := by simp [forget]
@[simp] theorem forget_rate (name : RecordName) (s : State) : (forget name s).rate = s.rate := by simp [forget]
@[simp] theorem forget_tracker (name : RecordName) (s : State) : (forget name s).tracker = s.tracker := by simp [forget]
@[simp] theorem forget_sup (name : RecordName) (s : State) : (forget name s).sup = s.sup := by simp [forget]
@[simp] theorem forget_tables (name : RecordName) (s : State) : (forget name s).tables = s.tables := by simp [forget]
@[simp] theorem forget_notices (name : RecordName) (s : State) : (forget name s).notices = s.notices := by simp [forget]
@[simp] theorem forget_lrx (name : RecordName) (s : State) : (forget name s).lrx = s.lrx := by simp [forget]
@[simp] theorem forget_ltx (name : RecordName) (s : State) : (forget name s).ltx = s.ltx := by simp [forget]
@[simp] theorem forget_unstated (name : RecordName) (s : State) : (forget name s).unstated = s.unstated := by simp [forget]
@[simp] theorem forget_pending (name : RecordName) (s : State) : (forget name s).pending = s.pending := by simp [forget]

@[simp] theorem endSlots_now (s : State) : (endSlots s).now = s.now := by simp [endSlots]
@[simp] theorem endSlots_held (s : State) : (endSlots s).held = s.held := by simp [endSlots]
@[simp] theorem endSlots_jam (s : State) : (endSlots s).jam = s.jam := by simp [endSlots]
@[simp] theorem endSlots_rate (s : State) : (endSlots s).rate = s.rate := by simp [endSlots]
@[simp] theorem endSlots_tracker (s : State) : (endSlots s).tracker = s.tracker := by simp [endSlots]
@[simp] theorem endSlots_sup (s : State) : (endSlots s).sup = s.sup := by simp [endSlots]
@[simp] theorem endSlots_tables (s : State) : (endSlots s).tables = s.tables := by simp [endSlots]
@[simp] theorem endSlots_notices (s : State) : (endSlots s).notices = s.notices := by simp [endSlots]
@[simp] theorem endSlots_lrx (s : State) : (endSlots s).lrx = s.lrx := by simp [endSlots]
@[simp] theorem endSlots_ltx (s : State) : (endSlots s).ltx = s.ltx := by simp [endSlots]
@[simp] theorem endSlots_unstated (s : State) : (endSlots s).unstated = s.unstated := by simp [endSlots]
@[simp] theorem endSlots_pending (s : State) : (endSlots s).pending = s.pending := by simp [endSlots]

@[simp] theorem stopOutlets_now (s : State) : (stopOutlets s).now = s.now := by simp [stopOutlets]
@[simp] theorem stopOutlets_held (s : State) : (stopOutlets s).held = s.held := by simp [stopOutlets]
@[simp] theorem stopOutlets_jam (s : State) : (stopOutlets s).jam = s.jam := by simp [stopOutlets]
@[simp] theorem stopOutlets_rate (s : State) : (stopOutlets s).rate = s.rate := by simp [stopOutlets]
@[simp] theorem stopOutlets_tracker (s : State) : (stopOutlets s).tracker = s.tracker := by simp [stopOutlets]
@[simp] theorem stopOutlets_sup (s : State) : (stopOutlets s).sup = s.sup := by simp [stopOutlets]
@[simp] theorem stopOutlets_tables (s : State) : (stopOutlets s).tables = s.tables := by simp [stopOutlets]
@[simp] theorem stopOutlets_notices (s : State) : (stopOutlets s).notices = s.notices := by simp [stopOutlets]
@[simp] theorem stopOutlets_lrx (s : State) : (stopOutlets s).lrx = s.lrx := by simp [stopOutlets]
@[simp] theorem stopOutlets_ltx (s : State) : (stopOutlets s).ltx = s.ltx := by simp [stopOutlets]
@[simp] theorem stopOutlets_unstated (s : State) : (stopOutlets s).unstated = s.unstated := by simp [stopOutlets]
@[simp] theorem stopOutlets_pending (s : State) : (stopOutlets s).pending = s.pending := by simp [stopOutlets]

@[simp] theorem enqueue_now (tag : Byte) (body : OutBody) (s : State) : (enqueue tag body s).now = s.now := by simp [enqueue]
@[simp] theorem enqueue_held (tag : Byte) (body : OutBody) (s : State) : (enqueue tag body s).held = s.held := by simp [enqueue]
@[simp] theorem enqueue_jam (tag : Byte) (body : OutBody) (s : State) : (enqueue tag body s).jam = s.jam := by simp [enqueue]
@[simp] theorem enqueue_rate (tag : Byte) (body : OutBody) (s : State) : (enqueue tag body s).rate = s.rate := by simp [enqueue]
@[simp] theorem enqueue_tracker (tag : Byte) (body : OutBody) (s : State) : (enqueue tag body s).tracker = s.tracker := by simp [enqueue]
@[simp] theorem enqueue_outlets (tag : Byte) (body : OutBody) (s : State) : (enqueue tag body s).outlets = s.outlets := by simp [enqueue]
@[simp] theorem enqueue_sup (tag : Byte) (body : OutBody) (s : State) : (enqueue tag body s).sup = s.sup := by simp [enqueue]
@[simp] theorem enqueue_tables (tag : Byte) (body : OutBody) (s : State) : (enqueue tag body s).tables = s.tables := by simp [enqueue]
@[simp] theorem enqueue_notices (tag : Byte) (body : OutBody) (s : State) : (enqueue tag body s).notices = s.notices := by simp [enqueue]
@[simp] theorem enqueue_lrx (tag : Byte) (body : OutBody) (s : State) : (enqueue tag body s).lrx = s.lrx := by simp [enqueue]
@[simp] theorem enqueue_unstated (tag : Byte) (body : OutBody) (s : State) : (enqueue tag body s).unstated = s.unstated := by simp [enqueue]
@[simp] theorem enqueue_pending (tag : Byte) (body : OutBody) (s : State) : (enqueue tag body s).pending = s.pending := by simp [enqueue]

@[simp] theorem offerReport_now (r : SortReport) (s : State) : (offerReport r s).now = s.now := by simp [offerReport]
@[simp] theorem offerReport_held (r : SortReport) (s : State) : (offerReport r s).held = s.held := by simp [offerReport]
@[simp] theorem offerReport_jam (r : SortReport) (s : State) : (offerReport r s).jam = s.jam := by simp [offerReport]
@[simp] theorem offerReport_rate (r : SortReport) (s : State) : (offerReport r s).rate = s.rate := by simp [offerReport]
@[simp] theorem offerReport_tracker (r : SortReport) (s : State) : (offerReport r s).tracker = s.tracker := by simp [offerReport]
@[simp] theorem offerReport_outlets (r : SortReport) (s : State) : (offerReport r s).outlets = s.outlets := by simp [offerReport]
@[simp] theorem offerReport_sup (r : SortReport) (s : State) : (offerReport r s).sup = s.sup := by simp [offerReport]
@[simp] theorem offerReport_tables (r : SortReport) (s : State) : (offerReport r s).tables = s.tables := by simp [offerReport]
@[simp] theorem offerReport_notices (r : SortReport) (s : State) : (offerReport r s).notices = s.notices := by simp [offerReport]
@[simp] theorem offerReport_lrx (r : SortReport) (s : State) : (offerReport r s).lrx = s.lrx := by simp [offerReport]
@[simp] theorem offerReport_unstated (r : SortReport) (s : State) : (offerReport r s).unstated = s.unstated := by simp [offerReport]
@[simp] theorem offerReport_pending (r : SortReport) (s : State) : (offerReport r s).pending = s.pending := by simp [offerReport]

@[simp] theorem setStage_now (stage : Stage) (s : State) : (setStage stage s).now = s.now := by simp [setStage]
@[simp] theorem setStage_held (stage : Stage) (s : State) : (setStage stage s).held = s.held := by simp [setStage]
@[simp] theorem setStage_jam (stage : Stage) (s : State) : (setStage stage s).jam = s.jam := by simp [setStage]
@[simp] theorem setStage_rate (stage : Stage) (s : State) : (setStage stage s).rate = s.rate := by simp [setStage]
@[simp] theorem setStage_tracker (stage : Stage) (s : State) : (setStage stage s).tracker = s.tracker := by simp [setStage]
@[simp] theorem setStage_outlets (stage : Stage) (s : State) : (setStage stage s).outlets = s.outlets := by simp [setStage]
@[simp] theorem setStage_tables (stage : Stage) (s : State) : (setStage stage s).tables = s.tables := by simp [setStage]
@[simp] theorem setStage_notices (stage : Stage) (s : State) : (setStage stage s).notices = s.notices := by simp [setStage]
@[simp] theorem setStage_lrx (stage : Stage) (s : State) : (setStage stage s).lrx = s.lrx := by simp [setStage]
@[simp] theorem setStage_ltx (stage : Stage) (s : State) : (setStage stage s).ltx = s.ltx := by simp [setStage]
@[simp] theorem setStage_unstated (stage : Stage) (s : State) : (setStage stage s).unstated = s.unstated := by simp [setStage]
@[simp] theorem setStage_pending (stage : Stage) (s : State) : (setStage stage s).pending = s.pending := by simp [setStage]

@[simp] theorem closeTracker_now (s : State) : (closeTracker s).now = s.now := by simp [closeTracker]
@[simp] theorem closeTracker_held (s : State) : (closeTracker s).held = s.held := by simp [closeTracker]
@[simp] theorem closeTracker_jam (s : State) : (closeTracker s).jam = s.jam := by simp [closeTracker]
@[simp] theorem closeTracker_rate (s : State) : (closeTracker s).rate = s.rate := by simp [closeTracker]
@[simp] theorem closeTracker_outlets (s : State) : (closeTracker s).outlets = s.outlets := by simp [closeTracker]
@[simp] theorem closeTracker_sup (s : State) : (closeTracker s).sup = s.sup := by simp [closeTracker]
@[simp] theorem closeTracker_tables (s : State) : (closeTracker s).tables = s.tables := by simp [closeTracker]
@[simp] theorem closeTracker_notices (s : State) : (closeTracker s).notices = s.notices := by simp [closeTracker]
@[simp] theorem closeTracker_lrx (s : State) : (closeTracker s).lrx = s.lrx := by simp [closeTracker]
@[simp] theorem closeTracker_ltx (s : State) : (closeTracker s).ltx = s.ltx := by simp [closeTracker]
@[simp] theorem closeTracker_unstated (s : State) : (closeTracker s).unstated = s.unstated := by simp [closeTracker]
@[simp] theorem closeTracker_pending (s : State) : (closeTracker s).pending = s.pending := by simp [closeTracker]

@[simp] theorem countIndex_now (by_ : Int) (s : State) : (countIndex by_ s).now = s.now := by simp [countIndex]
@[simp] theorem countIndex_held (by_ : Int) (s : State) : (countIndex by_ s).held = s.held := by simp [countIndex]
@[simp] theorem countIndex_jam (by_ : Int) (s : State) : (countIndex by_ s).jam = s.jam := by simp [countIndex]
@[simp] theorem countIndex_rate (by_ : Int) (s : State) : (countIndex by_ s).rate = s.rate := by simp [countIndex]
@[simp] theorem countIndex_tracker (by_ : Int) (s : State) : (countIndex by_ s).tracker = s.tracker := by simp [countIndex]
@[simp] theorem countIndex_outlets (by_ : Int) (s : State) : (countIndex by_ s).outlets = s.outlets := by simp [countIndex]
@[simp] theorem countIndex_tables (by_ : Int) (s : State) : (countIndex by_ s).tables = s.tables := by simp [countIndex]
@[simp] theorem countIndex_notices (by_ : Int) (s : State) : (countIndex by_ s).notices = s.notices := by simp [countIndex]
@[simp] theorem countIndex_lrx (by_ : Int) (s : State) : (countIndex by_ s).lrx = s.lrx := by simp [countIndex]
@[simp] theorem countIndex_ltx (by_ : Int) (s : State) : (countIndex by_ s).ltx = s.ltx := by simp [countIndex]
@[simp] theorem countIndex_unstated (by_ : Int) (s : State) : (countIndex by_ s).unstated = s.unstated := by simp [countIndex]
@[simp] theorem countIndex_pending (by_ : Int) (s : State) : (countIndex by_ s).pending = s.pending := by simp [countIndex]

@[simp] theorem book_now (pocket : Nat) (report : SortReport) (s : State) : (book pocket report s).now = s.now := by simp [book]
@[simp] theorem book_held (pocket : Nat) (report : SortReport) (s : State) : (book pocket report s).held = s.held := by simp [book]
@[simp] theorem book_jam (pocket : Nat) (report : SortReport) (s : State) : (book pocket report s).jam = s.jam := by simp [book]
@[simp] theorem book_rate (pocket : Nat) (report : SortReport) (s : State) : (book pocket report s).rate = s.rate := by simp [book]
@[simp] theorem book_tracker (pocket : Nat) (report : SortReport) (s : State) : (book pocket report s).tracker = s.tracker := by simp [book]
@[simp] theorem book_outlets (pocket : Nat) (report : SortReport) (s : State) : (book pocket report s).outlets = s.outlets := by simp [book]
@[simp] theorem book_tables (pocket : Nat) (report : SortReport) (s : State) : (book pocket report s).tables = s.tables := by simp [book]
@[simp] theorem book_lrx (pocket : Nat) (report : SortReport) (s : State) : (book pocket report s).lrx = s.lrx := by simp [book]
@[simp] theorem book_unstated (pocket : Nat) (report : SortReport) (s : State) : (book pocket report s).unstated = s.unstated := by simp [book]
@[simp] theorem book_pending (pocket : Nat) (report : SortReport) (s : State) : (book pocket report s).pending = s.pending := by simp [book]

@[simp] theorem bookRecord_now (r : PocketRecord) (pocket : Nat) (s : State) : (bookRecord r pocket s).now = s.now := by simp [bookRecord]
@[simp] theorem bookRecord_held (r : PocketRecord) (pocket : Nat) (s : State) : (bookRecord r pocket s).held = s.held := by simp [bookRecord]
@[simp] theorem bookRecord_jam (r : PocketRecord) (pocket : Nat) (s : State) : (bookRecord r pocket s).jam = s.jam := by simp [bookRecord]
@[simp] theorem bookRecord_rate (r : PocketRecord) (pocket : Nat) (s : State) : (bookRecord r pocket s).rate = s.rate := by simp [bookRecord]
@[simp] theorem bookRecord_tracker (r : PocketRecord) (pocket : Nat) (s : State) : (bookRecord r pocket s).tracker = s.tracker := by simp [bookRecord]
@[simp] theorem bookRecord_outlets (r : PocketRecord) (pocket : Nat) (s : State) : (bookRecord r pocket s).outlets = s.outlets := by simp [bookRecord]
@[simp] theorem bookRecord_tables (r : PocketRecord) (pocket : Nat) (s : State) : (bookRecord r pocket s).tables = s.tables := by simp [bookRecord]
@[simp] theorem bookRecord_lrx (r : PocketRecord) (pocket : Nat) (s : State) : (bookRecord r pocket s).lrx = s.lrx := by simp [bookRecord]
@[simp] theorem bookRecord_unstated (r : PocketRecord) (pocket : Nat) (s : State) : (bookRecord r pocket s).unstated = s.unstated := by simp [bookRecord]
@[simp] theorem bookRecord_pending (r : PocketRecord) (pocket : Nat) (s : State) : (bookRecord r pocket s).pending = s.pending := by simp [bookRecord]

@[simp] theorem enterHalted_now (ret : RunState) (e : FaultEntry) (s : State) : (enterHalted ret e s).now = s.now := by simp [enterHalted]
@[simp] theorem enterHalted_held (ret : RunState) (e : FaultEntry) (s : State) : (enterHalted ret e s).held = s.held := by simp [enterHalted]
@[simp] theorem enterHalted_jam (ret : RunState) (e : FaultEntry) (s : State) : (enterHalted ret e s).jam = s.jam := by simp [enterHalted]
@[simp] theorem enterHalted_rate (ret : RunState) (e : FaultEntry) (s : State) : (enterHalted ret e s).rate = s.rate := by simp [enterHalted]
@[simp] theorem enterHalted_tracker (ret : RunState) (e : FaultEntry) (s : State) : (enterHalted ret e s).tracker = s.tracker := by simp [enterHalted]
@[simp] theorem enterHalted_tables (ret : RunState) (e : FaultEntry) (s : State) : (enterHalted ret e s).tables = s.tables := by simp [enterHalted]
@[simp] theorem enterHalted_lrx (ret : RunState) (e : FaultEntry) (s : State) : (enterHalted ret e s).lrx = s.lrx := by simp [enterHalted]
@[simp] theorem enterHalted_ltx (ret : RunState) (e : FaultEntry) (s : State) : (enterHalted ret e s).ltx = s.ltx := by simp [enterHalted]
@[simp] theorem enterHalted_unstated (ret : RunState) (e : FaultEntry) (s : State) : (enterHalted ret e s).unstated = s.unstated := by simp [enterHalted]
@[simp] theorem enterHalted_pending (ret : RunState) (e : FaultEntry) (s : State) : (enterHalted ret e s).pending = s.pending := by simp [enterHalted]

@[simp] theorem closeLot_now (kind : EndKind) (s : State) : (closeLot kind s).now = s.now := by simp [closeLot]
@[simp] theorem closeLot_held (kind : EndKind) (s : State) : (closeLot kind s).held = s.held := by simp [closeLot]
@[simp] theorem closeLot_jam (kind : EndKind) (s : State) : (closeLot kind s).jam = s.jam := by simp [closeLot]
@[simp] theorem closeLot_rate (kind : EndKind) (s : State) : (closeLot kind s).rate = s.rate := by simp [closeLot]
@[simp] theorem closeLot_tables (kind : EndKind) (s : State) : (closeLot kind s).tables = s.tables := by simp [closeLot]
@[simp] theorem closeLot_lrx (kind : EndKind) (s : State) : (closeLot kind s).lrx = s.lrx := by simp [closeLot]
@[simp] theorem closeLot_unstated (kind : EndKind) (s : State) : (closeLot kind s).unstated = s.unstated := by simp [closeLot]
@[simp] theorem closeLot_pending (kind : EndKind) (s : State) : (closeLot kind s).pending = s.pending := by simp [closeLot]

@[simp] theorem stopCheckTimer_now (s : State) : (stopCheckTimer s).now = s.now := by simp [stopCheckTimer]
@[simp] theorem stopCheckTimer_held (s : State) : (stopCheckTimer s).held = s.held := by simp [stopCheckTimer]
@[simp] theorem stopCheckTimer_jam (s : State) : (stopCheckTimer s).jam = s.jam := by simp [stopCheckTimer]
@[simp] theorem stopCheckTimer_rate (s : State) : (stopCheckTimer s).rate = s.rate := by simp [stopCheckTimer]
@[simp] theorem stopCheckTimer_outlets (s : State) : (stopCheckTimer s).outlets = s.outlets := by simp [stopCheckTimer]
@[simp] theorem stopCheckTimer_sup (s : State) : (stopCheckTimer s).sup = s.sup := by simp [stopCheckTimer]
@[simp] theorem stopCheckTimer_tables (s : State) : (stopCheckTimer s).tables = s.tables := by simp [stopCheckTimer]
@[simp] theorem stopCheckTimer_notices (s : State) : (stopCheckTimer s).notices = s.notices := by simp [stopCheckTimer]
@[simp] theorem stopCheckTimer_lrx (s : State) : (stopCheckTimer s).lrx = s.lrx := by simp [stopCheckTimer]
@[simp] theorem stopCheckTimer_ltx (s : State) : (stopCheckTimer s).ltx = s.ltx := by simp [stopCheckTimer]
@[simp] theorem stopCheckTimer_unstated (s : State) : (stopCheckTimer s).unstated = s.unstated := by simp [stopCheckTimer]
@[simp] theorem stopCheckTimer_pending (s : State) : (stopCheckTimer s).pending = s.pending := by simp [stopCheckTimer]

@[simp] theorem markChecked_now (s : State) : (markChecked s).now = s.now := by simp [markChecked]
@[simp] theorem markChecked_held (s : State) : (markChecked s).held = s.held := by simp [markChecked]
@[simp] theorem markChecked_jam (s : State) : (markChecked s).jam = s.jam := by simp [markChecked]
@[simp] theorem markChecked_rate (s : State) : (markChecked s).rate = s.rate := by simp [markChecked]
@[simp] theorem markChecked_outlets (s : State) : (markChecked s).outlets = s.outlets := by simp [markChecked]
@[simp] theorem markChecked_sup (s : State) : (markChecked s).sup = s.sup := by simp [markChecked]
@[simp] theorem markChecked_tables (s : State) : (markChecked s).tables = s.tables := by simp [markChecked]
@[simp] theorem markChecked_notices (s : State) : (markChecked s).notices = s.notices := by simp [markChecked]
@[simp] theorem markChecked_lrx (s : State) : (markChecked s).lrx = s.lrx := by simp [markChecked]
@[simp] theorem markChecked_ltx (s : State) : (markChecked s).ltx = s.ltx := by simp [markChecked]
@[simp] theorem markChecked_unstated (s : State) : (markChecked s).unstated = s.unstated := by simp [markChecked]
@[simp] theorem markChecked_pending (s : State) : (markChecked s).pending = s.pending := by simp [markChecked]

@[simp] theorem push_now (r : PocketRecord) (s : State) : (push r s).now = s.now := by simp [push]
@[simp] theorem push_held (r : PocketRecord) (s : State) : (push r s).held = s.held := by simp [push]
@[simp] theorem push_jam (r : PocketRecord) (s : State) : (push r s).jam = s.jam := by simp [push]
@[simp] theorem push_rate (r : PocketRecord) (s : State) : (push r s).rate = s.rate := by simp [push]
@[simp] theorem push_outlets (r : PocketRecord) (s : State) : (push r s).outlets = s.outlets := by simp [push]
@[simp] theorem push_sup (r : PocketRecord) (s : State) : (push r s).sup = s.sup := by simp [push]
@[simp] theorem push_tables (r : PocketRecord) (s : State) : (push r s).tables = s.tables := by simp [push]
@[simp] theorem push_notices (r : PocketRecord) (s : State) : (push r s).notices = s.notices := by simp [push]
@[simp] theorem push_lrx (r : PocketRecord) (s : State) : (push r s).lrx = s.lrx := by simp [push]
@[simp] theorem push_ltx (r : PocketRecord) (s : State) : (push r s).ltx = s.ltx := by simp [push]
@[simp] theorem push_unstated (r : PocketRecord) (s : State) : (push r s).unstated = s.unstated := by simp [push]
@[simp] theorem push_pending (r : PocketRecord) (s : State) : (push r s).pending = s.pending := by simp [push]

@[simp] theorem newRecord_now (phase : Phase) (s : State) : (newRecord phase s).now = s.now := by simp [newRecord]
@[simp] theorem newRecord_held (phase : Phase) (s : State) : (newRecord phase s).held = s.held := by simp [newRecord]
@[simp] theorem newRecord_jam (phase : Phase) (s : State) : (newRecord phase s).jam = s.jam := by simp [newRecord]
@[simp] theorem newRecord_rate (phase : Phase) (s : State) : (newRecord phase s).rate = s.rate := by simp [newRecord]
@[simp] theorem newRecord_outlets (phase : Phase) (s : State) : (newRecord phase s).outlets = s.outlets := by simp [newRecord]
@[simp] theorem newRecord_sup (phase : Phase) (s : State) : (newRecord phase s).sup = s.sup := by simp [newRecord]
@[simp] theorem newRecord_tables (phase : Phase) (s : State) : (newRecord phase s).tables = s.tables := by simp [newRecord]
@[simp] theorem newRecord_notices (phase : Phase) (s : State) : (newRecord phase s).notices = s.notices := by simp [newRecord]
@[simp] theorem newRecord_lrx (phase : Phase) (s : State) : (newRecord phase s).lrx = s.lrx := by simp [newRecord]
@[simp] theorem newRecord_ltx (phase : Phase) (s : State) : (newRecord phase s).ltx = s.ltx := by simp [newRecord]
@[simp] theorem newRecord_unstated (phase : Phase) (s : State) : (newRecord phase s).unstated = s.unstated := by simp [newRecord]
@[simp] theorem newRecord_pending (phase : Phase) (s : State) : (newRecord phase s).pending = s.pending := by simp [newRecord]

@[simp] theorem moveLoadPocket_now (by_ : Int) (s : State) : (moveLoadPocket by_ s).now = s.now := by simp [moveLoadPocket]
@[simp] theorem moveLoadPocket_held (by_ : Int) (s : State) : (moveLoadPocket by_ s).held = s.held := by simp [moveLoadPocket]
@[simp] theorem moveLoadPocket_jam (by_ : Int) (s : State) : (moveLoadPocket by_ s).jam = s.jam := by simp [moveLoadPocket]
@[simp] theorem moveLoadPocket_rate (by_ : Int) (s : State) : (moveLoadPocket by_ s).rate = s.rate := by simp [moveLoadPocket]
@[simp] theorem moveLoadPocket_outlets (by_ : Int) (s : State) : (moveLoadPocket by_ s).outlets = s.outlets := by simp [moveLoadPocket]
@[simp] theorem moveLoadPocket_sup (by_ : Int) (s : State) : (moveLoadPocket by_ s).sup = s.sup := by simp [moveLoadPocket]
@[simp] theorem moveLoadPocket_tables (by_ : Int) (s : State) : (moveLoadPocket by_ s).tables = s.tables := by simp [moveLoadPocket]
@[simp] theorem moveLoadPocket_notices (by_ : Int) (s : State) : (moveLoadPocket by_ s).notices = s.notices := by simp [moveLoadPocket]
@[simp] theorem moveLoadPocket_lrx (by_ : Int) (s : State) : (moveLoadPocket by_ s).lrx = s.lrx := by simp [moveLoadPocket]
@[simp] theorem moveLoadPocket_ltx (by_ : Int) (s : State) : (moveLoadPocket by_ s).ltx = s.ltx := by simp [moveLoadPocket]
@[simp] theorem moveLoadPocket_unstated (by_ : Int) (s : State) : (moveLoadPocket by_ s).unstated = s.unstated := by simp [moveLoadPocket]
@[simp] theorem moveLoadPocket_pending (by_ : Int) (s : State) : (moveLoadPocket by_ s).pending = s.pending := by simp [moveLoadPocket]

@[simp] theorem startCheckTimer_now (s : State) : (startCheckTimer s).now = s.now := by simp [startCheckTimer]
@[simp] theorem startCheckTimer_held (s : State) : (startCheckTimer s).held = s.held := by simp [startCheckTimer]
@[simp] theorem startCheckTimer_jam (s : State) : (startCheckTimer s).jam = s.jam := by simp [startCheckTimer]
@[simp] theorem startCheckTimer_rate (s : State) : (startCheckTimer s).rate = s.rate := by simp [startCheckTimer]
@[simp] theorem startCheckTimer_outlets (s : State) : (startCheckTimer s).outlets = s.outlets := by simp [startCheckTimer]
@[simp] theorem startCheckTimer_sup (s : State) : (startCheckTimer s).sup = s.sup := by simp [startCheckTimer]
@[simp] theorem startCheckTimer_tables (s : State) : (startCheckTimer s).tables = s.tables := by simp [startCheckTimer]
@[simp] theorem startCheckTimer_notices (s : State) : (startCheckTimer s).notices = s.notices := by simp [startCheckTimer]
@[simp] theorem startCheckTimer_lrx (s : State) : (startCheckTimer s).lrx = s.lrx := by simp [startCheckTimer]
@[simp] theorem startCheckTimer_ltx (s : State) : (startCheckTimer s).ltx = s.ltx := by simp [startCheckTimer]
@[simp] theorem startCheckTimer_unstated (s : State) : (startCheckTimer s).unstated = s.unstated := by simp [startCheckTimer]
@[simp] theorem startCheckTimer_pending (s : State) : (startCheckTimer s).pending = s.pending := by simp [startCheckTimer]

@[simp] theorem finalVerdict_now (k : Nat) (v : Verdict) (x : Reason) (s : State) : (finalVerdict k v x s).now = s.now := by simp [finalVerdict]
@[simp] theorem finalVerdict_held (k : Nat) (v : Verdict) (x : Reason) (s : State) : (finalVerdict k v x s).held = s.held := by simp [finalVerdict]
@[simp] theorem finalVerdict_jam (k : Nat) (v : Verdict) (x : Reason) (s : State) : (finalVerdict k v x s).jam = s.jam := by simp [finalVerdict]
@[simp] theorem finalVerdict_rate (k : Nat) (v : Verdict) (x : Reason) (s : State) : (finalVerdict k v x s).rate = s.rate := by simp [finalVerdict]
@[simp] theorem finalVerdict_sup (k : Nat) (v : Verdict) (x : Reason) (s : State) : (finalVerdict k v x s).sup = s.sup := by simp [finalVerdict]
@[simp] theorem finalVerdict_tables (k : Nat) (v : Verdict) (x : Reason) (s : State) : (finalVerdict k v x s).tables = s.tables := by simp [finalVerdict]
@[simp] theorem finalVerdict_notices (k : Nat) (v : Verdict) (x : Reason) (s : State) : (finalVerdict k v x s).notices = s.notices := by simp [finalVerdict]
@[simp] theorem finalVerdict_lrx (k : Nat) (v : Verdict) (x : Reason) (s : State) : (finalVerdict k v x s).lrx = s.lrx := by simp [finalVerdict]
@[simp] theorem finalVerdict_ltx (k : Nat) (v : Verdict) (x : Reason) (s : State) : (finalVerdict k v x s).ltx = s.ltx := by simp [finalVerdict]
@[simp] theorem finalVerdict_unstated (k : Nat) (v : Verdict) (x : Reason) (s : State) : (finalVerdict k v x s).unstated = s.unstated := by simp [finalVerdict]
@[simp] theorem finalVerdict_pending (k : Nat) (v : Verdict) (x : Reason) (s : State) : (finalVerdict k v x s).pending = s.pending := by simp [finalVerdict]

@[simp] theorem recordFire_now (n : Fin 16) (k : Nat) (r : PocketRecord) (s : State) : (recordFire n k r s).now = s.now := by simp [recordFire]
@[simp] theorem recordFire_held (n : Fin 16) (k : Nat) (r : PocketRecord) (s : State) : (recordFire n k r s).held = s.held := by simp [recordFire]
@[simp] theorem recordFire_jam (n : Fin 16) (k : Nat) (r : PocketRecord) (s : State) : (recordFire n k r s).jam = s.jam := by simp [recordFire]
@[simp] theorem recordFire_rate (n : Fin 16) (k : Nat) (r : PocketRecord) (s : State) : (recordFire n k r s).rate = s.rate := by simp [recordFire]
@[simp] theorem recordFire_sup (n : Fin 16) (k : Nat) (r : PocketRecord) (s : State) : (recordFire n k r s).sup = s.sup := by simp [recordFire]
@[simp] theorem recordFire_tables (n : Fin 16) (k : Nat) (r : PocketRecord) (s : State) : (recordFire n k r s).tables = s.tables := by simp [recordFire]
@[simp] theorem recordFire_notices (n : Fin 16) (k : Nat) (r : PocketRecord) (s : State) : (recordFire n k r s).notices = s.notices := by simp [recordFire]
@[simp] theorem recordFire_lrx (n : Fin 16) (k : Nat) (r : PocketRecord) (s : State) : (recordFire n k r s).lrx = s.lrx := by simp [recordFire]
@[simp] theorem recordFire_ltx (n : Fin 16) (k : Nat) (r : PocketRecord) (s : State) : (recordFire n k r s).ltx = s.ltx := by simp [recordFire]
@[simp] theorem recordFire_unstated (n : Fin 16) (k : Nat) (r : PocketRecord) (s : State) : (recordFire n k r s).unstated = s.unstated := by simp [recordFire]
@[simp] theorem recordFire_pending (n : Fin 16) (k : Nat) (r : PocketRecord) (s : State) : (recordFire n k r s).pending = s.pending := by simp [recordFire]

@[simp] theorem countRecovered_now (counted : Bool) (s : State) : (countRecovered counted s).now = s.now := by simp [countRecovered]
@[simp] theorem countRecovered_held (counted : Bool) (s : State) : (countRecovered counted s).held = s.held := by simp [countRecovered]
@[simp] theorem countRecovered_jam (counted : Bool) (s : State) : (countRecovered counted s).jam = s.jam := by simp [countRecovered]
@[simp] theorem countRecovered_rate (counted : Bool) (s : State) : (countRecovered counted s).rate = s.rate := by simp [countRecovered]
@[simp] theorem countRecovered_tracker (counted : Bool) (s : State) : (countRecovered counted s).tracker = s.tracker := by simp [countRecovered]
@[simp] theorem countRecovered_outlets (counted : Bool) (s : State) : (countRecovered counted s).outlets = s.outlets := by simp [countRecovered]
@[simp] theorem countRecovered_tables (counted : Bool) (s : State) : (countRecovered counted s).tables = s.tables := by simp [countRecovered]
@[simp] theorem countRecovered_notices (counted : Bool) (s : State) : (countRecovered counted s).notices = s.notices := by simp [countRecovered]
@[simp] theorem countRecovered_lrx (counted : Bool) (s : State) : (countRecovered counted s).lrx = s.lrx := by simp [countRecovered]
@[simp] theorem countRecovered_ltx (counted : Bool) (s : State) : (countRecovered counted s).ltx = s.ltx := by simp [countRecovered]
@[simp] theorem countRecovered_unstated (counted : Bool) (s : State) : (countRecovered counted s).unstated = s.unstated := by simp [countRecovered]
@[simp] theorem countRecovered_pending (counted : Bool) (s : State) : (countRecovered counted s).pending = s.pending := by simp [countRecovered]

@[simp] theorem strayDrop_now (n : Fin 16) (s : State) : (strayDrop n s).now = s.now := by simp [strayDrop]
@[simp] theorem strayDrop_held (n : Fin 16) (s : State) : (strayDrop n s).held = s.held := by simp [strayDrop]
@[simp] theorem strayDrop_jam (n : Fin 16) (s : State) : (strayDrop n s).jam = s.jam := by simp [strayDrop]
@[simp] theorem strayDrop_rate (n : Fin 16) (s : State) : (strayDrop n s).rate = s.rate := by simp [strayDrop]
@[simp] theorem strayDrop_tracker (n : Fin 16) (s : State) : (strayDrop n s).tracker = s.tracker := by simp [strayDrop]
@[simp] theorem strayDrop_outlets (n : Fin 16) (s : State) : (strayDrop n s).outlets = s.outlets := by simp [strayDrop]
@[simp] theorem strayDrop_tables (n : Fin 16) (s : State) : (strayDrop n s).tables = s.tables := by simp [strayDrop]
@[simp] theorem strayDrop_lrx (n : Fin 16) (s : State) : (strayDrop n s).lrx = s.lrx := by simp [strayDrop]
@[simp] theorem strayDrop_ltx (n : Fin 16) (s : State) : (strayDrop n s).ltx = s.ltx := by simp [strayDrop]
@[simp] theorem strayDrop_unstated (n : Fin 16) (s : State) : (strayDrop n s).unstated = s.unstated := by simp [strayDrop]
@[simp] theorem strayDrop_pending (n : Fin 16) (s : State) : (strayDrop n s).pending = s.pending := by simp [strayDrop]

@[simp] theorem discard_now (x : Discard) (s : State) : (discard x s).now = s.now := by simp [discard]
@[simp] theorem discard_held (x : Discard) (s : State) : (discard x s).held = s.held := by simp [discard]
@[simp] theorem discard_jam (x : Discard) (s : State) : (discard x s).jam = s.jam := by simp [discard]
@[simp] theorem discard_rate (x : Discard) (s : State) : (discard x s).rate = s.rate := by simp [discard]
@[simp] theorem discard_tracker (x : Discard) (s : State) : (discard x s).tracker = s.tracker := by simp [discard]
@[simp] theorem discard_outlets (x : Discard) (s : State) : (discard x s).outlets = s.outlets := by simp [discard]
@[simp] theorem discard_tables (x : Discard) (s : State) : (discard x s).tables = s.tables := by simp [discard]
@[simp] theorem discard_lrx (x : Discard) (s : State) : (discard x s).lrx = s.lrx := by simp [discard]
@[simp] theorem discard_ltx (x : Discard) (s : State) : (discard x s).ltx = s.ltx := by simp [discard]
@[simp] theorem discard_unstated (x : Discard) (s : State) : (discard x s).unstated = s.unstated := by simp [discard]
@[simp] theorem discard_pending (x : Discard) (s : State) : (discard x s).pending = s.pending := by simp [discard]

@[simp] theorem addResult_now (k : Nat) (m : Meas) (s : State) : (addResult k m s).now = s.now := by simp [addResult]
@[simp] theorem addResult_held (k : Nat) (m : Meas) (s : State) : (addResult k m s).held = s.held := by simp [addResult]
@[simp] theorem addResult_jam (k : Nat) (m : Meas) (s : State) : (addResult k m s).jam = s.jam := by simp [addResult]
@[simp] theorem addResult_rate (k : Nat) (m : Meas) (s : State) : (addResult k m s).rate = s.rate := by simp [addResult]
@[simp] theorem addResult_outlets (k : Nat) (m : Meas) (s : State) : (addResult k m s).outlets = s.outlets := by simp [addResult]
@[simp] theorem addResult_sup (k : Nat) (m : Meas) (s : State) : (addResult k m s).sup = s.sup := by simp [addResult]
@[simp] theorem addResult_tables (k : Nat) (m : Meas) (s : State) : (addResult k m s).tables = s.tables := by simp [addResult]
@[simp] theorem addResult_notices (k : Nat) (m : Meas) (s : State) : (addResult k m s).notices = s.notices := by simp [addResult]
@[simp] theorem addResult_lrx (k : Nat) (m : Meas) (s : State) : (addResult k m s).lrx = s.lrx := by simp [addResult]
@[simp] theorem addResult_ltx (k : Nat) (m : Meas) (s : State) : (addResult k m s).ltx = s.ltx := by simp [addResult]
@[simp] theorem addResult_unstated (k : Nat) (m : Meas) (s : State) : (addResult k m s).unstated = s.unstated := by simp [addResult]
@[simp] theorem addResult_pending (k : Nat) (m : Meas) (s : State) : (addResult k m s).pending = s.pending := by simp [addResult]

@[simp] theorem countPart_now (k : Nat) (s : State) : (countPart k s).now = s.now := by simp [countPart]
@[simp] theorem countPart_held (k : Nat) (s : State) : (countPart k s).held = s.held := by simp [countPart]
@[simp] theorem countPart_jam (k : Nat) (s : State) : (countPart k s).jam = s.jam := by simp [countPart]
@[simp] theorem countPart_rate (k : Nat) (s : State) : (countPart k s).rate = s.rate := by simp [countPart]
@[simp] theorem countPart_outlets (k : Nat) (s : State) : (countPart k s).outlets = s.outlets := by simp [countPart]
@[simp] theorem countPart_tables (k : Nat) (s : State) : (countPart k s).tables = s.tables := by simp [countPart]
@[simp] theorem countPart_notices (k : Nat) (s : State) : (countPart k s).notices = s.notices := by simp [countPart]
@[simp] theorem countPart_lrx (k : Nat) (s : State) : (countPart k s).lrx = s.lrx := by simp [countPart]
@[simp] theorem countPart_ltx (k : Nat) (s : State) : (countPart k s).ltx = s.ltx := by simp [countPart]
@[simp] theorem countPart_unstated (k : Nat) (s : State) : (countPart k s).unstated = s.unstated := by simp [countPart]
@[simp] theorem countPart_pending (k : Nat) (s : State) : (countPart k s).pending = s.pending := by simp [countPart]

@[simp] theorem reply_now (f : InFrame) (x : ResultCode) (rest : List Byte) (s : State) : (reply f x rest s).now = s.now := by simp [reply]
@[simp] theorem reply_held (f : InFrame) (x : ResultCode) (rest : List Byte) (s : State) : (reply f x rest s).held = s.held := by simp [reply]
@[simp] theorem reply_jam (f : InFrame) (x : ResultCode) (rest : List Byte) (s : State) : (reply f x rest s).jam = s.jam := by simp [reply]
@[simp] theorem reply_rate (f : InFrame) (x : ResultCode) (rest : List Byte) (s : State) : (reply f x rest s).rate = s.rate := by simp [reply]
@[simp] theorem reply_tracker (f : InFrame) (x : ResultCode) (rest : List Byte) (s : State) : (reply f x rest s).tracker = s.tracker := by simp [reply]
@[simp] theorem reply_outlets (f : InFrame) (x : ResultCode) (rest : List Byte) (s : State) : (reply f x rest s).outlets = s.outlets := by simp [reply]
@[simp] theorem reply_sup (f : InFrame) (x : ResultCode) (rest : List Byte) (s : State) : (reply f x rest s).sup = s.sup := by simp [reply]
@[simp] theorem reply_tables (f : InFrame) (x : ResultCode) (rest : List Byte) (s : State) : (reply f x rest s).tables = s.tables := by simp [reply]
@[simp] theorem reply_notices (f : InFrame) (x : ResultCode) (rest : List Byte) (s : State) : (reply f x rest s).notices = s.notices := by simp [reply]
@[simp] theorem reply_lrx (f : InFrame) (x : ResultCode) (rest : List Byte) (s : State) : (reply f x rest s).lrx = s.lrx := by simp [reply]
@[simp] theorem reply_unstated (f : InFrame) (x : ResultCode) (rest : List Byte) (s : State) : (reply f x rest s).unstated = s.unstated := by simp [reply]
@[simp] theorem reply_pending (f : InFrame) (x : ResultCode) (rest : List Byte) (s : State) : (reply f x rest s).pending = s.pending := by simp [reply]

@[simp] theorem badField_now (f : InFrame) (number : Nat) (s : State) : (badField f number s).now = s.now := by simp [badField]
@[simp] theorem badField_held (f : InFrame) (number : Nat) (s : State) : (badField f number s).held = s.held := by simp [badField]
@[simp] theorem badField_jam (f : InFrame) (number : Nat) (s : State) : (badField f number s).jam = s.jam := by simp [badField]
@[simp] theorem badField_rate (f : InFrame) (number : Nat) (s : State) : (badField f number s).rate = s.rate := by simp [badField]
@[simp] theorem badField_tracker (f : InFrame) (number : Nat) (s : State) : (badField f number s).tracker = s.tracker := by simp [badField]
@[simp] theorem badField_outlets (f : InFrame) (number : Nat) (s : State) : (badField f number s).outlets = s.outlets := by simp [badField]
@[simp] theorem badField_sup (f : InFrame) (number : Nat) (s : State) : (badField f number s).sup = s.sup := by simp [badField]
@[simp] theorem badField_tables (f : InFrame) (number : Nat) (s : State) : (badField f number s).tables = s.tables := by simp [badField]
@[simp] theorem badField_notices (f : InFrame) (number : Nat) (s : State) : (badField f number s).notices = s.notices := by simp [badField]
@[simp] theorem badField_lrx (f : InFrame) (number : Nat) (s : State) : (badField f number s).lrx = s.lrx := by simp [badField]
@[simp] theorem badField_unstated (f : InFrame) (number : Nat) (s : State) : (badField f number s).unstated = s.unstated := by simp [badField]
@[simp] theorem badField_pending (f : InFrame) (number : Nat) (s : State) : (badField f number s).pending = s.pending := by simp [badField]

@[simp] theorem setStaging_now (t : TableSet) (c : Crc) (s : State) : (setStaging t c s).now = s.now := by simp [setStaging]
@[simp] theorem setStaging_held (t : TableSet) (c : Crc) (s : State) : (setStaging t c s).held = s.held := by simp [setStaging]
@[simp] theorem setStaging_jam (t : TableSet) (c : Crc) (s : State) : (setStaging t c s).jam = s.jam := by simp [setStaging]
@[simp] theorem setStaging_rate (t : TableSet) (c : Crc) (s : State) : (setStaging t c s).rate = s.rate := by simp [setStaging]
@[simp] theorem setStaging_tracker (t : TableSet) (c : Crc) (s : State) : (setStaging t c s).tracker = s.tracker := by simp [setStaging]
@[simp] theorem setStaging_outlets (t : TableSet) (c : Crc) (s : State) : (setStaging t c s).outlets = s.outlets := by simp [setStaging]
@[simp] theorem setStaging_sup (t : TableSet) (c : Crc) (s : State) : (setStaging t c s).sup = s.sup := by simp [setStaging]
@[simp] theorem setStaging_notices (t : TableSet) (c : Crc) (s : State) : (setStaging t c s).notices = s.notices := by simp [setStaging]
@[simp] theorem setStaging_lrx (t : TableSet) (c : Crc) (s : State) : (setStaging t c s).lrx = s.lrx := by simp [setStaging]
@[simp] theorem setStaging_ltx (t : TableSet) (c : Crc) (s : State) : (setStaging t c s).ltx = s.ltx := by simp [setStaging]
@[simp] theorem setStaging_unstated (t : TableSet) (c : Crc) (s : State) : (setStaging t c s).unstated = s.unstated := by simp [setStaging]
@[simp] theorem setStaging_pending (t : TableSet) (c : Crc) (s : State) : (setStaging t c s).pending = s.pending := by simp [setStaging]

@[simp] theorem discardStaging_now (s : State) : (discardStaging s).now = s.now := by simp [discardStaging]
@[simp] theorem discardStaging_held (s : State) : (discardStaging s).held = s.held := by simp [discardStaging]
@[simp] theorem discardStaging_jam (s : State) : (discardStaging s).jam = s.jam := by simp [discardStaging]
@[simp] theorem discardStaging_rate (s : State) : (discardStaging s).rate = s.rate := by simp [discardStaging]
@[simp] theorem discardStaging_tracker (s : State) : (discardStaging s).tracker = s.tracker := by simp [discardStaging]
@[simp] theorem discardStaging_outlets (s : State) : (discardStaging s).outlets = s.outlets := by simp [discardStaging]
@[simp] theorem discardStaging_sup (s : State) : (discardStaging s).sup = s.sup := by simp [discardStaging]
@[simp] theorem discardStaging_notices (s : State) : (discardStaging s).notices = s.notices := by simp [discardStaging]
@[simp] theorem discardStaging_lrx (s : State) : (discardStaging s).lrx = s.lrx := by simp [discardStaging]
@[simp] theorem discardStaging_ltx (s : State) : (discardStaging s).ltx = s.ltx := by simp [discardStaging]
@[simp] theorem discardStaging_unstated (s : State) : (discardStaging s).unstated = s.unstated := by simp [discardStaging]
@[simp] theorem discardStaging_pending (s : State) : (discardStaging s).pending = s.pending := by simp [discardStaging]

@[simp] theorem activate_now (s : State) : (activate s).now = s.now := by simp [activate]
@[simp] theorem activate_held (s : State) : (activate s).held = s.held := by simp [activate]
@[simp] theorem activate_jam (s : State) : (activate s).jam = s.jam := by simp [activate]
@[simp] theorem activate_rate (s : State) : (activate s).rate = s.rate := by simp [activate]
@[simp] theorem activate_tracker (s : State) : (activate s).tracker = s.tracker := by simp [activate]
@[simp] theorem activate_notices (s : State) : (activate s).notices = s.notices := by simp [activate]
@[simp] theorem activate_ltx (s : State) : (activate s).ltx = s.ltx := by simp [activate]
@[simp] theorem activate_unstated (s : State) : (activate s).unstated = s.unstated := by simp [activate]
@[simp] theorem activate_pending (s : State) : (activate s).pending = s.pending := by simp [activate]

@[simp] theorem drawUnstated_now (s : State) : (drawUnstated s).now = s.now := by simp [drawUnstated]
@[simp] theorem drawUnstated_held (s : State) : (drawUnstated s).held = s.held := by simp [drawUnstated]
@[simp] theorem drawUnstated_jam (s : State) : (drawUnstated s).jam = s.jam := by simp [drawUnstated]
@[simp] theorem drawUnstated_rate (s : State) : (drawUnstated s).rate = s.rate := by simp [drawUnstated]
@[simp] theorem drawUnstated_tracker (s : State) : (drawUnstated s).tracker = s.tracker := by simp [drawUnstated]
@[simp] theorem drawUnstated_outlets (s : State) : (drawUnstated s).outlets = s.outlets := by simp [drawUnstated]
@[simp] theorem drawUnstated_sup (s : State) : (drawUnstated s).sup = s.sup := by simp [drawUnstated]
@[simp] theorem drawUnstated_tables (s : State) : (drawUnstated s).tables = s.tables := by simp [drawUnstated]
@[simp] theorem drawUnstated_notices (s : State) : (drawUnstated s).notices = s.notices := by simp [drawUnstated]
@[simp] theorem drawUnstated_lrx (s : State) : (drawUnstated s).lrx = s.lrx := by simp [drawUnstated]
@[simp] theorem drawUnstated_ltx (s : State) : (drawUnstated s).ltx = s.ltx := by simp [drawUnstated]
@[simp] theorem drawUnstated_pending (s : State) : (drawUnstated s).pending = s.pending := by simp [drawUnstated]

@[simp] theorem openLot_now (lotId loadPocket : Nat) (s : State) : (openLot lotId loadPocket s).now = s.now := by simp [openLot]
@[simp] theorem openLot_held (lotId loadPocket : Nat) (s : State) : (openLot lotId loadPocket s).held = s.held := by simp [openLot]
@[simp] theorem openLot_jam (lotId loadPocket : Nat) (s : State) : (openLot lotId loadPocket s).jam = s.jam := by simp [openLot]
@[simp] theorem openLot_rate (lotId loadPocket : Nat) (s : State) : (openLot lotId loadPocket s).rate = s.rate := by simp [openLot]
@[simp] theorem openLot_tables (lotId loadPocket : Nat) (s : State) : (openLot lotId loadPocket s).tables = s.tables := by simp [openLot]
@[simp] theorem openLot_notices (lotId loadPocket : Nat) (s : State) : (openLot lotId loadPocket s).notices = s.notices := by simp [openLot]
@[simp] theorem openLot_lrx (lotId loadPocket : Nat) (s : State) : (openLot lotId loadPocket s).lrx = s.lrx := by simp [openLot]
@[simp] theorem openLot_ltx (lotId loadPocket : Nat) (s : State) : (openLot lotId loadPocket s).ltx = s.ltx := by simp [openLot]
@[simp] theorem openLot_unstated (lotId loadPocket : Nat) (s : State) : (openLot lotId loadPocket s).unstated = s.unstated := by simp [openLot]
@[simp] theorem openLot_pending (lotId loadPocket : Nat) (s : State) : (openLot lotId loadPocket s).pending = s.pending := by simp [openLot]

@[simp] theorem beginClearance_now (stage : Stage) (kind : RunKind) (s : State) : (beginClearance stage kind s).now = s.now := by simp [beginClearance]
@[simp] theorem beginClearance_held (stage : Stage) (kind : RunKind) (s : State) : (beginClearance stage kind s).held = s.held := by simp [beginClearance]
@[simp] theorem beginClearance_jam (stage : Stage) (kind : RunKind) (s : State) : (beginClearance stage kind s).jam = s.jam := by simp [beginClearance]
@[simp] theorem beginClearance_rate (stage : Stage) (kind : RunKind) (s : State) : (beginClearance stage kind s).rate = s.rate := by simp [beginClearance]
@[simp] theorem beginClearance_tracker (stage : Stage) (kind : RunKind) (s : State) : (beginClearance stage kind s).tracker = s.tracker := by simp [beginClearance]
@[simp] theorem beginClearance_outlets (stage : Stage) (kind : RunKind) (s : State) : (beginClearance stage kind s).outlets = s.outlets := by simp [beginClearance]
@[simp] theorem beginClearance_tables (stage : Stage) (kind : RunKind) (s : State) : (beginClearance stage kind s).tables = s.tables := by simp [beginClearance]
@[simp] theorem beginClearance_notices (stage : Stage) (kind : RunKind) (s : State) : (beginClearance stage kind s).notices = s.notices := by simp [beginClearance]
@[simp] theorem beginClearance_lrx (stage : Stage) (kind : RunKind) (s : State) : (beginClearance stage kind s).lrx = s.lrx := by simp [beginClearance]
@[simp] theorem beginClearance_ltx (stage : Stage) (kind : RunKind) (s : State) : (beginClearance stage kind s).ltx = s.ltx := by simp [beginClearance]
@[simp] theorem beginClearance_unstated (stage : Stage) (kind : RunKind) (s : State) : (beginClearance stage kind s).unstated = s.unstated := by simp [beginClearance]
@[simp] theorem beginClearance_pending (stage : Stage) (kind : RunKind) (s : State) : (beginClearance stage kind s).pending = s.pending := by simp [beginClearance]

@[simp] theorem abortClose_now (s : State) : (abortClose s).now = s.now := by simp [abortClose]
@[simp] theorem abortClose_held (s : State) : (abortClose s).held = s.held := by simp [abortClose]
@[simp] theorem abortClose_jam (s : State) : (abortClose s).jam = s.jam := by simp [abortClose]
@[simp] theorem abortClose_rate (s : State) : (abortClose s).rate = s.rate := by simp [abortClose]
@[simp] theorem abortClose_outlets (s : State) : (abortClose s).outlets = s.outlets := by simp [abortClose]
@[simp] theorem abortClose_tables (s : State) : (abortClose s).tables = s.tables := by simp [abortClose]
@[simp] theorem abortClose_notices (s : State) : (abortClose s).notices = s.notices := by simp [abortClose]
@[simp] theorem abortClose_lrx (s : State) : (abortClose s).lrx = s.lrx := by simp [abortClose]
@[simp] theorem abortClose_ltx (s : State) : (abortClose s).ltx = s.ltx := by simp [abortClose]
@[simp] theorem abortClose_unstated (s : State) : (abortClose s).unstated = s.unstated := by simp [abortClose]
@[simp] theorem abortClose_pending (s : State) : (abortClose s).pending = s.pending := by simp [abortClose]

@[simp] theorem leaveHalted_now (s : State) : (leaveHalted s).now = s.now := by simp [leaveHalted]
@[simp] theorem leaveHalted_held (s : State) : (leaveHalted s).held = s.held := by simp [leaveHalted]
@[simp] theorem leaveHalted_jam (s : State) : (leaveHalted s).jam = s.jam := by simp [leaveHalted]
@[simp] theorem leaveHalted_rate (s : State) : (leaveHalted s).rate = s.rate := by simp [leaveHalted]
@[simp] theorem leaveHalted_tracker (s : State) : (leaveHalted s).tracker = s.tracker := by simp [leaveHalted]
@[simp] theorem leaveHalted_outlets (s : State) : (leaveHalted s).outlets = s.outlets := by simp [leaveHalted]
@[simp] theorem leaveHalted_tables (s : State) : (leaveHalted s).tables = s.tables := by simp [leaveHalted]
@[simp] theorem leaveHalted_notices (s : State) : (leaveHalted s).notices = s.notices := by simp [leaveHalted]
@[simp] theorem leaveHalted_lrx (s : State) : (leaveHalted s).lrx = s.lrx := by simp [leaveHalted]
@[simp] theorem leaveHalted_ltx (s : State) : (leaveHalted s).ltx = s.ltx := by simp [leaveHalted]
@[simp] theorem leaveHalted_unstated (s : State) : (leaveHalted s).unstated = s.unstated := by simp [leaveHalted]
@[simp] theorem leaveHalted_pending (s : State) : (leaveHalted s).pending = s.pending := by simp [leaveHalted]

@[simp] theorem emptyBin_now (n : Fin 16) (s : State) : (emptyBin n s).now = s.now := by simp [emptyBin]
@[simp] theorem emptyBin_held (n : Fin 16) (s : State) : (emptyBin n s).held = s.held := by simp [emptyBin]
@[simp] theorem emptyBin_jam (n : Fin 16) (s : State) : (emptyBin n s).jam = s.jam := by simp [emptyBin]
@[simp] theorem emptyBin_rate (n : Fin 16) (s : State) : (emptyBin n s).rate = s.rate := by simp [emptyBin]
@[simp] theorem emptyBin_tracker (n : Fin 16) (s : State) : (emptyBin n s).tracker = s.tracker := by simp [emptyBin]
@[simp] theorem emptyBin_sup (n : Fin 16) (s : State) : (emptyBin n s).sup = s.sup := by simp [emptyBin]
@[simp] theorem emptyBin_tables (n : Fin 16) (s : State) : (emptyBin n s).tables = s.tables := by simp [emptyBin]
@[simp] theorem emptyBin_notices (n : Fin 16) (s : State) : (emptyBin n s).notices = s.notices := by simp [emptyBin]
@[simp] theorem emptyBin_lrx (n : Fin 16) (s : State) : (emptyBin n s).lrx = s.lrx := by simp [emptyBin]
@[simp] theorem emptyBin_ltx (n : Fin 16) (s : State) : (emptyBin n s).ltx = s.ltx := by simp [emptyBin]
@[simp] theorem emptyBin_unstated (n : Fin 16) (s : State) : (emptyBin n s).unstated = s.unstated := by simp [emptyBin]
@[simp] theorem emptyBin_pending (n : Fin 16) (s : State) : (emptyBin n s).pending = s.pending := by simp [emptyBin]

@[simp] theorem announceStart_now (cause : ResetCause) (s : State) : (announceStart cause s).now = s.now := by simp [announceStart]
@[simp] theorem announceStart_held (cause : ResetCause) (s : State) : (announceStart cause s).held = s.held := by simp [announceStart]
@[simp] theorem announceStart_jam (cause : ResetCause) (s : State) : (announceStart cause s).jam = s.jam := by simp [announceStart]
@[simp] theorem announceStart_rate (cause : ResetCause) (s : State) : (announceStart cause s).rate = s.rate := by simp [announceStart]
@[simp] theorem announceStart_tracker (cause : ResetCause) (s : State) : (announceStart cause s).tracker = s.tracker := by simp [announceStart]
@[simp] theorem announceStart_outlets (cause : ResetCause) (s : State) : (announceStart cause s).outlets = s.outlets := by simp [announceStart]
@[simp] theorem announceStart_sup (cause : ResetCause) (s : State) : (announceStart cause s).sup = s.sup := by simp [announceStart]
@[simp] theorem announceStart_tables (cause : ResetCause) (s : State) : (announceStart cause s).tables = s.tables := by simp [announceStart]
@[simp] theorem announceStart_lrx (cause : ResetCause) (s : State) : (announceStart cause s).lrx = s.lrx := by simp [announceStart]
@[simp] theorem announceStart_unstated (cause : ResetCause) (s : State) : (announceStart cause s).unstated = s.unstated := by simp [announceStart]
@[simp] theorem announceStart_pending (cause : ResetCause) (s : State) : (announceStart cause s).pending = s.pending := by simp [announceStart]

@[simp] theorem coreReset_now (s : State) : (coreReset s).now = s.now := by simp [coreReset]
@[simp] theorem coreReset_held (s : State) : (coreReset s).held = s.held := by simp [coreReset]
@[simp] theorem coreReset_jam (s : State) : (coreReset s).jam = s.jam := by simp [coreReset]
@[simp] theorem coreReset_rate (s : State) : (coreReset s).rate = s.rate := by simp [coreReset]
@[simp] theorem coreReset_unstated (s : State) : (coreReset s).unstated = s.unstated := by simp [coreReset]
@[simp] theorem coreReset_pending (s : State) : (coreReset s).pending = s.pending := by simp [coreReset]

@[simp] theorem setAssembler_now (a : Assembler) (s : State) : (setAssembler a s).now = s.now := by simp [setAssembler]
@[simp] theorem setAssembler_held (a : Assembler) (s : State) : (setAssembler a s).held = s.held := by simp [setAssembler]
@[simp] theorem setAssembler_jam (a : Assembler) (s : State) : (setAssembler a s).jam = s.jam := by simp [setAssembler]
@[simp] theorem setAssembler_rate (a : Assembler) (s : State) : (setAssembler a s).rate = s.rate := by simp [setAssembler]
@[simp] theorem setAssembler_tracker (a : Assembler) (s : State) : (setAssembler a s).tracker = s.tracker := by simp [setAssembler]
@[simp] theorem setAssembler_outlets (a : Assembler) (s : State) : (setAssembler a s).outlets = s.outlets := by simp [setAssembler]
@[simp] theorem setAssembler_sup (a : Assembler) (s : State) : (setAssembler a s).sup = s.sup := by simp [setAssembler]
@[simp] theorem setAssembler_tables (a : Assembler) (s : State) : (setAssembler a s).tables = s.tables := by simp [setAssembler]
@[simp] theorem setAssembler_notices (a : Assembler) (s : State) : (setAssembler a s).notices = s.notices := by simp [setAssembler]
@[simp] theorem setAssembler_ltx (a : Assembler) (s : State) : (setAssembler a s).ltx = s.ltx := by simp [setAssembler]
@[simp] theorem setAssembler_unstated (a : Assembler) (s : State) : (setAssembler a s).unstated = s.unstated := by simp [setAssembler]
@[simp] theorem setAssembler_pending (a : Assembler) (s : State) : (setAssembler a s).pending = s.pending := by simp [setAssembler]

@[simp] theorem rejectFrame_now (x : LinkTrouble) (s : State) : (rejectFrame x s).now = s.now := by simp [rejectFrame]
@[simp] theorem rejectFrame_held (x : LinkTrouble) (s : State) : (rejectFrame x s).held = s.held := by simp [rejectFrame]
@[simp] theorem rejectFrame_jam (x : LinkTrouble) (s : State) : (rejectFrame x s).jam = s.jam := by simp [rejectFrame]
@[simp] theorem rejectFrame_rate (x : LinkTrouble) (s : State) : (rejectFrame x s).rate = s.rate := by simp [rejectFrame]
@[simp] theorem rejectFrame_tracker (x : LinkTrouble) (s : State) : (rejectFrame x s).tracker = s.tracker := by simp [rejectFrame]
@[simp] theorem rejectFrame_outlets (x : LinkTrouble) (s : State) : (rejectFrame x s).outlets = s.outlets := by simp [rejectFrame]
@[simp] theorem rejectFrame_sup (x : LinkTrouble) (s : State) : (rejectFrame x s).sup = s.sup := by simp [rejectFrame]
@[simp] theorem rejectFrame_tables (x : LinkTrouble) (s : State) : (rejectFrame x s).tables = s.tables := by simp [rejectFrame]
@[simp] theorem rejectFrame_unstated (x : LinkTrouble) (s : State) : (rejectFrame x s).unstated = s.unstated := by simp [rejectFrame]
@[simp] theorem rejectFrame_pending (x : LinkTrouble) (s : State) : (rejectFrame x s).pending = s.pending := by simp [rejectFrame]

@[simp] theorem timeGap_now (s : State) : (timeGap s).now = s.now := by simp [timeGap]
@[simp] theorem timeGap_held (s : State) : (timeGap s).held = s.held := by simp [timeGap]
@[simp] theorem timeGap_jam (s : State) : (timeGap s).jam = s.jam := by simp [timeGap]
@[simp] theorem timeGap_rate (s : State) : (timeGap s).rate = s.rate := by simp [timeGap]
@[simp] theorem timeGap_tracker (s : State) : (timeGap s).tracker = s.tracker := by simp [timeGap]
@[simp] theorem timeGap_outlets (s : State) : (timeGap s).outlets = s.outlets := by simp [timeGap]
@[simp] theorem timeGap_sup (s : State) : (timeGap s).sup = s.sup := by simp [timeGap]
@[simp] theorem timeGap_tables (s : State) : (timeGap s).tables = s.tables := by simp [timeGap]
@[simp] theorem timeGap_notices (s : State) : (timeGap s).notices = s.notices := by simp [timeGap]
@[simp] theorem timeGap_ltx (s : State) : (timeGap s).ltx = s.ltx := by simp [timeGap]
@[simp] theorem timeGap_unstated (s : State) : (timeGap s).unstated = s.unstated := by simp [timeGap]
@[simp] theorem timeGap_pending (s : State) : (timeGap s).pending = s.pending := by simp [timeGap]

@[simp] theorem markChar_now (s : State) : (markChar s).now = s.now := by simp [markChar]
@[simp] theorem markChar_held (s : State) : (markChar s).held = s.held := by simp [markChar]
@[simp] theorem markChar_jam (s : State) : (markChar s).jam = s.jam := by simp [markChar]
@[simp] theorem markChar_rate (s : State) : (markChar s).rate = s.rate := by simp [markChar]
@[simp] theorem markChar_tracker (s : State) : (markChar s).tracker = s.tracker := by simp [markChar]
@[simp] theorem markChar_outlets (s : State) : (markChar s).outlets = s.outlets := by simp [markChar]
@[simp] theorem markChar_sup (s : State) : (markChar s).sup = s.sup := by simp [markChar]
@[simp] theorem markChar_tables (s : State) : (markChar s).tables = s.tables := by simp [markChar]
@[simp] theorem markChar_notices (s : State) : (markChar s).notices = s.notices := by simp [markChar]
@[simp] theorem markChar_ltx (s : State) : (markChar s).ltx = s.ltx := by simp [markChar]
@[simp] theorem markChar_unstated (s : State) : (markChar s).unstated = s.unstated := by simp [markChar]
@[simp] theorem markChar_pending (s : State) : (markChar s).pending = s.pending := by simp [markChar]

@[simp] theorem admitUrgent_now (s : State) : (admitUrgent s).now = s.now := by simp [admitUrgent]
@[simp] theorem admitUrgent_held (s : State) : (admitUrgent s).held = s.held := by simp [admitUrgent]
@[simp] theorem admitUrgent_jam (s : State) : (admitUrgent s).jam = s.jam := by simp [admitUrgent]
@[simp] theorem admitUrgent_rate (s : State) : (admitUrgent s).rate = s.rate := by simp [admitUrgent]
@[simp] theorem admitUrgent_tracker (s : State) : (admitUrgent s).tracker = s.tracker := by simp [admitUrgent]
@[simp] theorem admitUrgent_outlets (s : State) : (admitUrgent s).outlets = s.outlets := by simp [admitUrgent]
@[simp] theorem admitUrgent_sup (s : State) : (admitUrgent s).sup = s.sup := by simp [admitUrgent]
@[simp] theorem admitUrgent_tables (s : State) : (admitUrgent s).tables = s.tables := by simp [admitUrgent]
@[simp] theorem admitUrgent_notices (s : State) : (admitUrgent s).notices = s.notices := by simp [admitUrgent]
@[simp] theorem admitUrgent_unstated (s : State) : (admitUrgent s).unstated = s.unstated := by simp [admitUrgent]
@[simp] theorem admitUrgent_pending (s : State) : (admitUrgent s).pending = s.pending := by simp [admitUrgent]

@[simp] theorem freePlace_now (s : State) : (freePlace s).now = s.now := by simp [freePlace]
@[simp] theorem freePlace_held (s : State) : (freePlace s).held = s.held := by simp [freePlace]
@[simp] theorem freePlace_jam (s : State) : (freePlace s).jam = s.jam := by simp [freePlace]
@[simp] theorem freePlace_rate (s : State) : (freePlace s).rate = s.rate := by simp [freePlace]
@[simp] theorem freePlace_tracker (s : State) : (freePlace s).tracker = s.tracker := by simp [freePlace]
@[simp] theorem freePlace_outlets (s : State) : (freePlace s).outlets = s.outlets := by simp [freePlace]
@[simp] theorem freePlace_sup (s : State) : (freePlace s).sup = s.sup := by simp [freePlace]
@[simp] theorem freePlace_tables (s : State) : (freePlace s).tables = s.tables := by simp [freePlace]
@[simp] theorem freePlace_notices (s : State) : (freePlace s).notices = s.notices := by simp [freePlace]
@[simp] theorem freePlace_lrx (s : State) : (freePlace s).lrx = s.lrx := by simp [freePlace]
@[simp] theorem freePlace_unstated (s : State) : (freePlace s).unstated = s.unstated := by simp [freePlace]
@[simp] theorem freePlace_pending (s : State) : (freePlace s).pending = s.pending := by simp [freePlace]

@[simp] theorem quietTxd_now (since : Nat) (s : State) : (quietTxd since s).now = s.now := by simp [quietTxd]
@[simp] theorem quietTxd_held (since : Nat) (s : State) : (quietTxd since s).held = s.held := by simp [quietTxd]
@[simp] theorem quietTxd_jam (since : Nat) (s : State) : (quietTxd since s).jam = s.jam := by simp [quietTxd]
@[simp] theorem quietTxd_rate (since : Nat) (s : State) : (quietTxd since s).rate = s.rate := by simp [quietTxd]
@[simp] theorem quietTxd_tracker (since : Nat) (s : State) : (quietTxd since s).tracker = s.tracker := by simp [quietTxd]
@[simp] theorem quietTxd_outlets (since : Nat) (s : State) : (quietTxd since s).outlets = s.outlets := by simp [quietTxd]
@[simp] theorem quietTxd_sup (since : Nat) (s : State) : (quietTxd since s).sup = s.sup := by simp [quietTxd]
@[simp] theorem quietTxd_tables (since : Nat) (s : State) : (quietTxd since s).tables = s.tables := by simp [quietTxd]
@[simp] theorem quietTxd_notices (since : Nat) (s : State) : (quietTxd since s).notices = s.notices := by simp [quietTxd]
@[simp] theorem quietTxd_lrx (since : Nat) (s : State) : (quietTxd since s).lrx = s.lrx := by simp [quietTxd]
@[simp] theorem quietTxd_unstated (since : Nat) (s : State) : (quietTxd since s).unstated = s.unstated := by simp [quietTxd]
@[simp] theorem quietTxd_pending (since : Nat) (s : State) : (quietTxd since s).pending = s.pending := by simp [quietTxd]

end Sys2Proof.Machine
end

