-- ==== Sys2Proof/Laws/Frames.lean ====
section
/-! SUPPORT. For each operation with cases, the fields of State that it leaves as they are. -/

namespace Sys2Proof.Machine

theorem modPlace_frame (p : Place) (f : PocketRecord → PocketRecord) (s : State) :
    let t := modPlace p f s
    t.now = s.now ∧ t.held = s.held ∧ t.jam = s.jam ∧ t.rate = s.rate ∧ t.outlets = s.outlets ∧ t.sup = s.sup ∧ t.tables = s.tables ∧ t.notices = s.notices ∧ t.lrx = s.lrx ∧ t.ltx = s.ltx ∧ t.unstated = s.unstated ∧ t.pending = s.pending := by
  unfold modPlace; dsimp only; (repeat' split) <;> simp
@[simp] theorem modPlace_now (p : Place) (f : PocketRecord → PocketRecord) (s : State) : (modPlace p f s).now = s.now := (modPlace_frame p f s).1
@[simp] theorem modPlace_held (p : Place) (f : PocketRecord → PocketRecord) (s : State) : (modPlace p f s).held = s.held := (modPlace_frame p f s).2.1
@[simp] theorem modPlace_jam (p : Place) (f : PocketRecord → PocketRecord) (s : State) : (modPlace p f s).jam = s.jam := (modPlace_frame p f s).2.2.1
@[simp] theorem modPlace_rate (p : Place) (f : PocketRecord → PocketRecord) (s : State) : (modPlace p f s).rate = s.rate := (modPlace_frame p f s).2.2.2.1
@[simp] theorem modPlace_outlets (p : Place) (f : PocketRecord → PocketRecord) (s : State) : (modPlace p f s).outlets = s.outlets := (modPlace_frame p f s).2.2.2.2.1
@[simp] theorem modPlace_sup (p : Place) (f : PocketRecord → PocketRecord) (s : State) : (modPlace p f s).sup = s.sup := (modPlace_frame p f s).2.2.2.2.2.1
@[simp] theorem modPlace_tables (p : Place) (f : PocketRecord → PocketRecord) (s : State) : (modPlace p f s).tables = s.tables := (modPlace_frame p f s).2.2.2.2.2.2.1
@[simp] theorem modPlace_notices (p : Place) (f : PocketRecord → PocketRecord) (s : State) : (modPlace p f s).notices = s.notices := (modPlace_frame p f s).2.2.2.2.2.2.2.1
@[simp] theorem modPlace_lrx (p : Place) (f : PocketRecord → PocketRecord) (s : State) : (modPlace p f s).lrx = s.lrx := (modPlace_frame p f s).2.2.2.2.2.2.2.2.1
@[simp] theorem modPlace_ltx (p : Place) (f : PocketRecord → PocketRecord) (s : State) : (modPlace p f s).ltx = s.ltx := (modPlace_frame p f s).2.2.2.2.2.2.2.2.2.1
@[simp] theorem modPlace_unstated (p : Place) (f : PocketRecord → PocketRecord) (s : State) : (modPlace p f s).unstated = s.unstated := (modPlace_frame p f s).2.2.2.2.2.2.2.2.2.2.1
@[simp] theorem modPlace_pending (p : Place) (f : PocketRecord → PocketRecord) (s : State) : (modPlace p f s).pending = s.pending := (modPlace_frame p f s).2.2.2.2.2.2.2.2.2.2.2

theorem release_frame (r : PocketRecord) (s : State) :
    let t := release r s
    t.now = s.now ∧ t.held = s.held ∧ t.jam = s.jam ∧ t.rate = s.rate ∧ t.tracker = s.tracker ∧ t.sup = s.sup ∧ t.tables = s.tables ∧ t.notices = s.notices ∧ t.lrx = s.lrx ∧ t.ltx = s.ltx ∧ t.unstated = s.unstated ∧ t.pending = s.pending := by
  unfold release; dsimp only; (repeat' split) <;> simp
@[simp] theorem release_now (r : PocketRecord) (s : State) : (release r s).now = s.now := (release_frame r s).1
@[simp] theorem release_held (r : PocketRecord) (s : State) : (release r s).held = s.held := (release_frame r s).2.1
@[simp] theorem release_jam (r : PocketRecord) (s : State) : (release r s).jam = s.jam := (release_frame r s).2.2.1
@[simp] theorem release_rate (r : PocketRecord) (s : State) : (release r s).rate = s.rate := (release_frame r s).2.2.2.1
@[simp] theorem release_tracker (r : PocketRecord) (s : State) : (release r s).tracker = s.tracker := (release_frame r s).2.2.2.2.1
@[simp] theorem release_sup (r : PocketRecord) (s : State) : (release r s).sup = s.sup := (release_frame r s).2.2.2.2.2.1
@[simp] theorem release_tables (r : PocketRecord) (s : State) : (release r s).tables = s.tables := (release_frame r s).2.2.2.2.2.2.1
@[simp] theorem release_notices (r : PocketRecord) (s : State) : (release r s).notices = s.notices := (release_frame r s).2.2.2.2.2.2.2.1
@[simp] theorem release_lrx (r : PocketRecord) (s : State) : (release r s).lrx = s.lrx := (release_frame r s).2.2.2.2.2.2.2.2.1
@[simp] theorem release_ltx (r : PocketRecord) (s : State) : (release r s).ltx = s.ltx := (release_frame r s).2.2.2.2.2.2.2.2.2.1
@[simp] theorem release_unstated (r : PocketRecord) (s : State) : (release r s).unstated = s.unstated := (release_frame r s).2.2.2.2.2.2.2.2.2.2.1
@[simp] theorem release_pending (r : PocketRecord) (s : State) : (release r s).pending = s.pending := (release_frame r s).2.2.2.2.2.2.2.2.2.2.2

theorem releaseIfDecided_frame (r : PocketRecord) (s : State) :
    let t := releaseIfDecided r s
    t.now = s.now ∧ t.held = s.held ∧ t.jam = s.jam ∧ t.rate = s.rate ∧ t.tracker = s.tracker ∧ t.sup = s.sup ∧ t.tables = s.tables ∧ t.notices = s.notices ∧ t.lrx = s.lrx ∧ t.ltx = s.ltx ∧ t.unstated = s.unstated ∧ t.pending = s.pending := by
  unfold releaseIfDecided; dsimp only; (repeat' split) <;> simp
@[simp] theorem releaseIfDecided_now (r : PocketRecord) (s : State) : (releaseIfDecided r s).now = s.now := (releaseIfDecided_frame r s).1
@[simp] theorem releaseIfDecided_held (r : PocketRecord) (s : State) : (releaseIfDecided r s).held = s.held := (releaseIfDecided_frame r s).2.1
@[simp] theorem releaseIfDecided_jam (r : PocketRecord) (s : State) : (releaseIfDecided r s).jam = s.jam := (releaseIfDecided_frame r s).2.2.1
@[simp] theorem releaseIfDecided_rate (r : PocketRecord) (s : State) : (releaseIfDecided r s).rate = s.rate := (releaseIfDecided_frame r s).2.2.2.1
@[simp] theorem releaseIfDecided_tracker (r : PocketRecord) (s : State) : (releaseIfDecided r s).tracker = s.tracker := (releaseIfDecided_frame r s).2.2.2.2.1
@[simp] theorem releaseIfDecided_sup (r : PocketRecord) (s : State) : (releaseIfDecided r s).sup = s.sup := (releaseIfDecided_frame r s).2.2.2.2.2.1
@[simp] theorem releaseIfDecided_tables (r : PocketRecord) (s : State) : (releaseIfDecided r s).tables = s.tables := (releaseIfDecided_frame r s).2.2.2.2.2.2.1
@[simp] theorem releaseIfDecided_notices (r : PocketRecord) (s : State) : (releaseIfDecided r s).notices = s.notices := (releaseIfDecided_frame r s).2.2.2.2.2.2.2.1
@[simp] theorem releaseIfDecided_lrx (r : PocketRecord) (s : State) : (releaseIfDecided r s).lrx = s.lrx := (releaseIfDecided_frame r s).2.2.2.2.2.2.2.2.1
@[simp] theorem releaseIfDecided_ltx (r : PocketRecord) (s : State) : (releaseIfDecided r s).ltx = s.ltx := (releaseIfDecided_frame r s).2.2.2.2.2.2.2.2.2.1
@[simp] theorem releaseIfDecided_unstated (r : PocketRecord) (s : State) : (releaseIfDecided r s).unstated = s.unstated := (releaseIfDecided_frame r s).2.2.2.2.2.2.2.2.2.2.1
@[simp] theorem releaseIfDecided_pending (r : PocketRecord) (s : State) : (releaseIfDecided r s).pending = s.pending := (releaseIfDecided_frame r s).2.2.2.2.2.2.2.2.2.2.2

theorem raiseFault_frame (c : FaultCode) (p : Nat) (q : Option Nat) (s : State) :
    let t := raiseFault c p q s
    t.now = s.now ∧ t.held = s.held ∧ t.jam = s.jam ∧ t.rate = s.rate ∧ t.tracker = s.tracker ∧ t.tables = s.tables ∧ t.lrx = s.lrx ∧ t.ltx = s.ltx ∧ t.unstated = s.unstated ∧ t.pending = s.pending := by
  unfold raiseFault; dsimp only; (repeat' split) <;> simp
@[simp] theorem raiseFault_now (c : FaultCode) (p : Nat) (q : Option Nat) (s : State) : (raiseFault c p q s).now = s.now := (raiseFault_frame c p q s).1
@[simp] theorem raiseFault_held (c : FaultCode) (p : Nat) (q : Option Nat) (s : State) : (raiseFault c p q s).held = s.held := (raiseFault_frame c p q s).2.1
@[simp] theorem raiseFault_jam (c : FaultCode) (p : Nat) (q : Option Nat) (s : State) : (raiseFault c p q s).jam = s.jam := (raiseFault_frame c p q s).2.2.1
@[simp] theorem raiseFault_rate (c : FaultCode) (p : Nat) (q : Option Nat) (s : State) : (raiseFault c p q s).rate = s.rate := (raiseFault_frame c p q s).2.2.2.1
@[simp] theorem raiseFault_tracker (c : FaultCode) (p : Nat) (q : Option Nat) (s : State) : (raiseFault c p q s).tracker = s.tracker := (raiseFault_frame c p q s).2.2.2.2.1
@[simp] theorem raiseFault_tables (c : FaultCode) (p : Nat) (q : Option Nat) (s : State) : (raiseFault c p q s).tables = s.tables := (raiseFault_frame c p q s).2.2.2.2.2.1
@[simp] theorem raiseFault_lrx (c : FaultCode) (p : Nat) (q : Option Nat) (s : State) : (raiseFault c p q s).lrx = s.lrx := (raiseFault_frame c p q s).2.2.2.2.2.2.1
@[simp] theorem raiseFault_ltx (c : FaultCode) (p : Nat) (q : Option Nat) (s : State) : (raiseFault c p q s).ltx = s.ltx := (raiseFault_frame c p q s).2.2.2.2.2.2.2.1
@[simp] theorem raiseFault_unstated (c : FaultCode) (p : Nat) (q : Option Nat) (s : State) : (raiseFault c p q s).unstated = s.unstated := (raiseFault_frame c p q s).2.2.2.2.2.2.2.2.1
@[simp] theorem raiseFault_pending (c : FaultCode) (p : Nat) (q : Option Nat) (s : State) : (raiseFault c p q s).pending = s.pending := (raiseFault_frame c p q s).2.2.2.2.2.2.2.2.2

theorem runOutStep_frame (s : State) :
    let t := runOutStep s
    t.now = s.now ∧ t.held = s.held ∧ t.jam = s.jam ∧ t.rate = s.rate ∧ t.tracker = s.tracker ∧ t.outlets = s.outlets ∧ t.tables = s.tables ∧ t.notices = s.notices ∧ t.lrx = s.lrx ∧ t.ltx = s.ltx ∧ t.unstated = s.unstated ∧ t.pending = s.pending := by
  unfold runOutStep; dsimp only; (repeat' split) <;> simp
@[simp] theorem runOutStep_now (s : State) : (runOutStep s).now = s.now := (runOutStep_frame s).1
@[simp] theorem runOutStep_held (s : State) : (runOutStep s).held = s.held := (runOutStep_frame s).2.1
@[simp] theorem runOutStep_jam (s : State) : (runOutStep s).jam = s.jam := (runOutStep_frame s).2.2.1
@[simp] theorem runOutStep_rate (s : State) : (runOutStep s).rate = s.rate := (runOutStep_frame s).2.2.2.1
@[simp] theorem runOutStep_tracker (s : State) : (runOutStep s).tracker = s.tracker := (runOutStep_frame s).2.2.2.2.1
@[simp] theorem runOutStep_outlets (s : State) : (runOutStep s).outlets = s.outlets := (runOutStep_frame s).2.2.2.2.2.1
@[simp] theorem runOutStep_tables (s : State) : (runOutStep s).tables = s.tables := (runOutStep_frame s).2.2.2.2.2.2.1
@[simp] theorem runOutStep_notices (s : State) : (runOutStep s).notices = s.notices := (runOutStep_frame s).2.2.2.2.2.2.2.1
@[simp] theorem runOutStep_lrx (s : State) : (runOutStep s).lrx = s.lrx := (runOutStep_frame s).2.2.2.2.2.2.2.2.1
@[simp] theorem runOutStep_ltx (s : State) : (runOutStep s).ltx = s.ltx := (runOutStep_frame s).2.2.2.2.2.2.2.2.2.1
@[simp] theorem runOutStep_unstated (s : State) : (runOutStep s).unstated = s.unstated := (runOutStep_frame s).2.2.2.2.2.2.2.2.2.2.1
@[simp] theorem runOutStep_pending (s : State) : (runOutStep s).pending = s.pending := (runOutStep_frame s).2.2.2.2.2.2.2.2.2.2.2

theorem unsettleStep_frame (s : State) :
    let t := unsettleStep s
    t.now = s.now ∧ t.held = s.held ∧ t.jam = s.jam ∧ t.rate = s.rate ∧ t.tracker = s.tracker ∧ t.outlets = s.outlets ∧ t.tables = s.tables ∧ t.notices = s.notices ∧ t.lrx = s.lrx ∧ t.ltx = s.ltx ∧ t.unstated = s.unstated ∧ t.pending = s.pending := by
  unfold unsettleStep; dsimp only; (repeat' split) <;> simp
@[simp] theorem unsettleStep_now (s : State) : (unsettleStep s).now = s.now := (unsettleStep_frame s).1
@[simp] theorem unsettleStep_held (s : State) : (unsettleStep s).held = s.held := (unsettleStep_frame s).2.1
@[simp] theorem unsettleStep_jam (s : State) : (unsettleStep s).jam = s.jam := (unsettleStep_frame s).2.2.1
@[simp] theorem unsettleStep_rate (s : State) : (unsettleStep s).rate = s.rate := (unsettleStep_frame s).2.2.2.1
@[simp] theorem unsettleStep_tracker (s : State) : (unsettleStep s).tracker = s.tracker := (unsettleStep_frame s).2.2.2.2.1
@[simp] theorem unsettleStep_outlets (s : State) : (unsettleStep s).outlets = s.outlets := (unsettleStep_frame s).2.2.2.2.2.1
@[simp] theorem unsettleStep_tables (s : State) : (unsettleStep s).tables = s.tables := (unsettleStep_frame s).2.2.2.2.2.2.1
@[simp] theorem unsettleStep_notices (s : State) : (unsettleStep s).notices = s.notices := (unsettleStep_frame s).2.2.2.2.2.2.2.1
@[simp] theorem unsettleStep_lrx (s : State) : (unsettleStep s).lrx = s.lrx := (unsettleStep_frame s).2.2.2.2.2.2.2.2.1
@[simp] theorem unsettleStep_ltx (s : State) : (unsettleStep s).ltx = s.ltx := (unsettleStep_frame s).2.2.2.2.2.2.2.2.2.1
@[simp] theorem unsettleStep_unstated (s : State) : (unsettleStep s).unstated = s.unstated := (unsettleStep_frame s).2.2.2.2.2.2.2.2.2.2.1
@[simp] theorem unsettleStep_pending (s : State) : (unsettleStep s).pending = s.pending := (unsettleStep_frame s).2.2.2.2.2.2.2.2.2.2.2

theorem settleStep_frame (s : State) :
    let t := settleStep s
    t.now = s.now ∧ t.held = s.held ∧ t.jam = s.jam ∧ t.rate = s.rate ∧ t.tracker = s.tracker ∧ t.outlets = s.outlets ∧ t.tables = s.tables ∧ t.notices = s.notices ∧ t.lrx = s.lrx ∧ t.ltx = s.ltx ∧ t.unstated = s.unstated ∧ t.pending = s.pending := by
  unfold settleStep; dsimp only; (repeat' split) <;> simp
@[simp] theorem settleStep_now (s : State) : (settleStep s).now = s.now := (settleStep_frame s).1
@[simp] theorem settleStep_held (s : State) : (settleStep s).held = s.held := (settleStep_frame s).2.1
@[simp] theorem settleStep_jam (s : State) : (settleStep s).jam = s.jam := (settleStep_frame s).2.2.1
@[simp] theorem settleStep_rate (s : State) : (settleStep s).rate = s.rate := (settleStep_frame s).2.2.2.1
@[simp] theorem settleStep_tracker (s : State) : (settleStep s).tracker = s.tracker := (settleStep_frame s).2.2.2.2.1
@[simp] theorem settleStep_outlets (s : State) : (settleStep s).outlets = s.outlets := (settleStep_frame s).2.2.2.2.2.1
@[simp] theorem settleStep_tables (s : State) : (settleStep s).tables = s.tables := (settleStep_frame s).2.2.2.2.2.2.1
@[simp] theorem settleStep_notices (s : State) : (settleStep s).notices = s.notices := (settleStep_frame s).2.2.2.2.2.2.2.1
@[simp] theorem settleStep_lrx (s : State) : (settleStep s).lrx = s.lrx := (settleStep_frame s).2.2.2.2.2.2.2.2.1
@[simp] theorem settleStep_ltx (s : State) : (settleStep s).ltx = s.ltx := (settleStep_frame s).2.2.2.2.2.2.2.2.2.1
@[simp] theorem settleStep_unstated (s : State) : (settleStep s).unstated = s.unstated := (settleStep_frame s).2.2.2.2.2.2.2.2.2.2.1
@[simp] theorem settleStep_pending (s : State) : (settleStep s).pending = s.pending := (settleStep_frame s).2.2.2.2.2.2.2.2.2.2.2

theorem summaryStep_frame (s : State) :
    let t := summaryStep s
    t.now = s.now ∧ t.held = s.held ∧ t.jam = s.jam ∧ t.rate = s.rate ∧ t.tables = s.tables ∧ t.lrx = s.lrx ∧ t.unstated = s.unstated ∧ t.pending = s.pending := by
  unfold summaryStep; dsimp only; (repeat' split) <;> simp
@[simp] theorem summaryStep_now (s : State) : (summaryStep s).now = s.now := (summaryStep_frame s).1
@[simp] theorem summaryStep_held (s : State) : (summaryStep s).held = s.held := (summaryStep_frame s).2.1
@[simp] theorem summaryStep_jam (s : State) : (summaryStep s).jam = s.jam := (summaryStep_frame s).2.2.1
@[simp] theorem summaryStep_rate (s : State) : (summaryStep s).rate = s.rate := (summaryStep_frame s).2.2.2.1
@[simp] theorem summaryStep_tables (s : State) : (summaryStep s).tables = s.tables := (summaryStep_frame s).2.2.2.2.1
@[simp] theorem summaryStep_lrx (s : State) : (summaryStep s).lrx = s.lrx := (summaryStep_frame s).2.2.2.2.2.1
@[simp] theorem summaryStep_unstated (s : State) : (summaryStep s).unstated = s.unstated := (summaryStep_frame s).2.2.2.2.2.2.1
@[simp] theorem summaryStep_pending (s : State) : (summaryStep s).pending = s.pending := (summaryStep_frame s).2.2.2.2.2.2.2

theorem advanceClearance_frame (s : State) :
    let t := advanceClearance s
    t.now = s.now ∧ t.held = s.held ∧ t.jam = s.jam ∧ t.rate = s.rate ∧ t.tables = s.tables ∧ t.lrx = s.lrx ∧ t.unstated = s.unstated ∧ t.pending = s.pending := by
  unfold advanceClearance; dsimp only; simp
@[simp] theorem advanceClearance_now (s : State) : (advanceClearance s).now = s.now := (advanceClearance_frame s).1
@[simp] theorem advanceClearance_held (s : State) : (advanceClearance s).held = s.held := (advanceClearance_frame s).2.1
@[simp] theorem advanceClearance_jam (s : State) : (advanceClearance s).jam = s.jam := (advanceClearance_frame s).2.2.1
@[simp] theorem advanceClearance_rate (s : State) : (advanceClearance s).rate = s.rate := (advanceClearance_frame s).2.2.2.1
@[simp] theorem advanceClearance_tables (s : State) : (advanceClearance s).tables = s.tables := (advanceClearance_frame s).2.2.2.2.1
@[simp] theorem advanceClearance_lrx (s : State) : (advanceClearance s).lrx = s.lrx := (advanceClearance_frame s).2.2.2.2.2.1
@[simp] theorem advanceClearance_unstated (s : State) : (advanceClearance s).unstated = s.unstated := (advanceClearance_frame s).2.2.2.2.2.2.1
@[simp] theorem advanceClearance_pending (s : State) : (advanceClearance s).pending = s.pending := (advanceClearance_frame s).2.2.2.2.2.2.2

theorem queueOwedInEvent_frame (s : State) :
    let t := queueOwedInEvent s
    t.now = s.now ∧ t.held = s.held ∧ t.jam = s.jam ∧ t.rate = s.rate ∧ t.tracker = s.tracker ∧ t.outlets = s.outlets ∧ t.sup = s.sup ∧ t.tables = s.tables ∧ t.lrx = s.lrx ∧ t.unstated = s.unstated ∧ t.pending = s.pending := by
  unfold queueOwedInEvent; dsimp only; (repeat' split) <;> simp
@[simp] theorem queueOwedInEvent_now (s : State) : (queueOwedInEvent s).now = s.now := (queueOwedInEvent_frame s).1
@[simp] theorem queueOwedInEvent_held (s : State) : (queueOwedInEvent s).held = s.held := (queueOwedInEvent_frame s).2.1
@[simp] theorem queueOwedInEvent_jam (s : State) : (queueOwedInEvent s).jam = s.jam := (queueOwedInEvent_frame s).2.2.1
@[simp] theorem queueOwedInEvent_rate (s : State) : (queueOwedInEvent s).rate = s.rate := (queueOwedInEvent_frame s).2.2.2.1
@[simp] theorem queueOwedInEvent_tracker (s : State) : (queueOwedInEvent s).tracker = s.tracker := (queueOwedInEvent_frame s).2.2.2.2.1
@[simp] theorem queueOwedInEvent_outlets (s : State) : (queueOwedInEvent s).outlets = s.outlets := (queueOwedInEvent_frame s).2.2.2.2.2.1
@[simp] theorem queueOwedInEvent_sup (s : State) : (queueOwedInEvent s).sup = s.sup := (queueOwedInEvent_frame s).2.2.2.2.2.2.1
@[simp] theorem queueOwedInEvent_tables (s : State) : (queueOwedInEvent s).tables = s.tables := (queueOwedInEvent_frame s).2.2.2.2.2.2.2.1
@[simp] theorem queueOwedInEvent_lrx (s : State) : (queueOwedInEvent s).lrx = s.lrx := (queueOwedInEvent_frame s).2.2.2.2.2.2.2.2.1
@[simp] theorem queueOwedInEvent_unstated (s : State) : (queueOwedInEvent s).unstated = s.unstated := (queueOwedInEvent_frame s).2.2.2.2.2.2.2.2.2.1
@[simp] theorem queueOwedInEvent_pending (s : State) : (queueOwedInEvent s).pending = s.pending := (queueOwedInEvent_frame s).2.2.2.2.2.2.2.2.2.2

theorem finishLine_frame (s : State) :
    let t := finishLine s
    t.now = s.now ∧ t.held = s.held ∧ t.jam = s.jam ∧ t.rate = s.rate ∧ t.tracker = s.tracker ∧ t.outlets = s.outlets ∧ t.sup = s.sup ∧ t.tables = s.tables ∧ t.lrx = s.lrx ∧ t.unstated = s.unstated ∧ t.pending = s.pending := by
  unfold finishLine; dsimp only; simp
@[simp] theorem finishLine_now (s : State) : (finishLine s).now = s.now := (finishLine_frame s).1
@[simp] theorem finishLine_held (s : State) : (finishLine s).held = s.held := (finishLine_frame s).2.1
@[simp] theorem finishLine_jam (s : State) : (finishLine s).jam = s.jam := (finishLine_frame s).2.2.1
@[simp] theorem finishLine_rate (s : State) : (finishLine s).rate = s.rate := (finishLine_frame s).2.2.2.1
@[simp] theorem finishLine_tracker (s : State) : (finishLine s).tracker = s.tracker := (finishLine_frame s).2.2.2.2.1
@[simp] theorem finishLine_outlets (s : State) : (finishLine s).outlets = s.outlets := (finishLine_frame s).2.2.2.2.2.1
@[simp] theorem finishLine_sup (s : State) : (finishLine s).sup = s.sup := (finishLine_frame s).2.2.2.2.2.2.1
@[simp] theorem finishLine_tables (s : State) : (finishLine s).tables = s.tables := (finishLine_frame s).2.2.2.2.2.2.2.1
@[simp] theorem finishLine_lrx (s : State) : (finishLine s).lrx = s.lrx := (finishLine_frame s).2.2.2.2.2.2.2.2.1
@[simp] theorem finishLine_unstated (s : State) : (finishLine s).unstated = s.unstated := (finishLine_frame s).2.2.2.2.2.2.2.2.2.1
@[simp] theorem finishLine_pending (s : State) : (finishLine s).pending = s.pending := (finishLine_frame s).2.2.2.2.2.2.2.2.2.2

theorem finishEvent_frame (s : State) :
    let t := finishEvent s
    t.now = s.now ∧ t.held = s.held ∧ t.jam = s.jam ∧ t.rate = s.rate ∧ t.tables = s.tables ∧ t.lrx = s.lrx ∧ t.unstated = s.unstated ∧ t.pending = s.pending := by
  unfold finishEvent; dsimp only; simp
@[simp] theorem finishEvent_now (s : State) : (finishEvent s).now = s.now := (finishEvent_frame s).1
@[simp] theorem finishEvent_held (s : State) : (finishEvent s).held = s.held := (finishEvent_frame s).2.1
@[simp] theorem finishEvent_jam (s : State) : (finishEvent s).jam = s.jam := (finishEvent_frame s).2.2.1
@[simp] theorem finishEvent_rate (s : State) : (finishEvent s).rate = s.rate := (finishEvent_frame s).2.2.2.1
@[simp] theorem finishEvent_tables (s : State) : (finishEvent s).tables = s.tables := (finishEvent_frame s).2.2.2.2.1
@[simp] theorem finishEvent_lrx (s : State) : (finishEvent s).lrx = s.lrx := (finishEvent_frame s).2.2.2.2.2.1
@[simp] theorem finishEvent_unstated (s : State) : (finishEvent s).unstated = s.unstated := (finishEvent_frame s).2.2.2.2.2.2.1
@[simp] theorem finishEvent_pending (s : State) : (finishEvent s).pending = s.pending := (finishEvent_frame s).2.2.2.2.2.2.2

theorem backlog_frame (n : Fin 16) (name : RecordName) (s : State) :
    let t := backlog n name s
    t.now = s.now ∧ t.held = s.held ∧ t.jam = s.jam ∧ t.rate = s.rate ∧ t.sup = s.sup ∧ t.tables = s.tables ∧ t.notices = s.notices ∧ t.lrx = s.lrx ∧ t.ltx = s.ltx ∧ t.unstated = s.unstated ∧ t.pending = s.pending := by
  unfold backlog; dsimp only; (repeat' split) <;> simp
@[simp] theorem backlog_now (n : Fin 16) (name : RecordName) (s : State) : (backlog n name s).now = s.now := (backlog_frame n name s).1
@[simp] theorem backlog_held (n : Fin 16) (name : RecordName) (s : State) : (backlog n name s).held = s.held := (backlog_frame n name s).2.1
@[simp] theorem backlog_jam (n : Fin 16) (name : RecordName) (s : State) : (backlog n name s).jam = s.jam := (backlog_frame n name s).2.2.1
@[simp] theorem backlog_rate (n : Fin 16) (name : RecordName) (s : State) : (backlog n name s).rate = s.rate := (backlog_frame n name s).2.2.2.1
@[simp] theorem backlog_sup (n : Fin 16) (name : RecordName) (s : State) : (backlog n name s).sup = s.sup := (backlog_frame n name s).2.2.2.2.1
@[simp] theorem backlog_tables (n : Fin 16) (name : RecordName) (s : State) : (backlog n name s).tables = s.tables := (backlog_frame n name s).2.2.2.2.2.1
@[simp] theorem backlog_notices (n : Fin 16) (name : RecordName) (s : State) : (backlog n name s).notices = s.notices := (backlog_frame n name s).2.2.2.2.2.2.1
@[simp] theorem backlog_lrx (n : Fin 16) (name : RecordName) (s : State) : (backlog n name s).lrx = s.lrx := (backlog_frame n name s).2.2.2.2.2.2.2.1
@[simp] theorem backlog_ltx (n : Fin 16) (name : RecordName) (s : State) : (backlog n name s).ltx = s.ltx := (backlog_frame n name s).2.2.2.2.2.2.2.2.1
@[simp] theorem backlog_unstated (n : Fin 16) (name : RecordName) (s : State) : (backlog n name s).unstated = s.unstated := (backlog_frame n name s).2.2.2.2.2.2.2.2.2.1
@[simp] theorem backlog_pending (n : Fin 16) (name : RecordName) (s : State) : (backlog n name s).pending = s.pending := (backlog_frame n name s).2.2.2.2.2.2.2.2.2.2

theorem beginFire_frame (n : Fin 16) (name : RecordName) (s : State) :
    let t := beginFire n name s
    t.now = s.now ∧ t.held = s.held ∧ t.jam = s.jam ∧ t.rate = s.rate ∧ t.sup = s.sup ∧ t.tables = s.tables ∧ t.notices = s.notices ∧ t.lrx = s.lrx ∧ t.ltx = s.ltx ∧ t.unstated = s.unstated ∧ t.pending = s.pending := by
  unfold beginFire; dsimp only; (repeat' split) <;> simp
@[simp] theorem beginFire_now (n : Fin 16) (name : RecordName) (s : State) : (beginFire n name s).now = s.now := (beginFire_frame n name s).1
@[simp] theorem beginFire_held (n : Fin 16) (name : RecordName) (s : State) : (beginFire n name s).held = s.held := (beginFire_frame n name s).2.1
@[simp] theorem beginFire_jam (n : Fin 16) (name : RecordName) (s : State) : (beginFire n name s).jam = s.jam := (beginFire_frame n name s).2.2.1
@[simp] theorem beginFire_rate (n : Fin 16) (name : RecordName) (s : State) : (beginFire n name s).rate = s.rate := (beginFire_frame n name s).2.2.2.1
@[simp] theorem beginFire_sup (n : Fin 16) (name : RecordName) (s : State) : (beginFire n name s).sup = s.sup := (beginFire_frame n name s).2.2.2.2.1
@[simp] theorem beginFire_tables (n : Fin 16) (name : RecordName) (s : State) : (beginFire n name s).tables = s.tables := (beginFire_frame n name s).2.2.2.2.2.1
@[simp] theorem beginFire_notices (n : Fin 16) (name : RecordName) (s : State) : (beginFire n name s).notices = s.notices := (beginFire_frame n name s).2.2.2.2.2.2.1
@[simp] theorem beginFire_lrx (n : Fin 16) (name : RecordName) (s : State) : (beginFire n name s).lrx = s.lrx := (beginFire_frame n name s).2.2.2.2.2.2.2.1
@[simp] theorem beginFire_ltx (n : Fin 16) (name : RecordName) (s : State) : (beginFire n name s).ltx = s.ltx := (beginFire_frame n name s).2.2.2.2.2.2.2.2.1
@[simp] theorem beginFire_unstated (n : Fin 16) (name : RecordName) (s : State) : (beginFire n name s).unstated = s.unstated := (beginFire_frame n name s).2.2.2.2.2.2.2.2.2.1
@[simp] theorem beginFire_pending (n : Fin 16) (name : RecordName) (s : State) : (beginFire n name s).pending = s.pending := (beginFire_frame n name s).2.2.2.2.2.2.2.2.2.2

theorem fireTests_frame (n : Fin 16) (name : RecordName) (s : State) :
    let t := fireTests n name s
    t.now = s.now ∧ t.held = s.held ∧ t.jam = s.jam ∧ t.rate = s.rate ∧ t.sup = s.sup ∧ t.tables = s.tables ∧ t.notices = s.notices ∧ t.lrx = s.lrx ∧ t.ltx = s.ltx ∧ t.unstated = s.unstated ∧ t.pending = s.pending := by
  unfold fireTests; dsimp only; (repeat' split) <;> simp
@[simp] theorem fireTests_now (n : Fin 16) (name : RecordName) (s : State) : (fireTests n name s).now = s.now := (fireTests_frame n name s).1
@[simp] theorem fireTests_held (n : Fin 16) (name : RecordName) (s : State) : (fireTests n name s).held = s.held := (fireTests_frame n name s).2.1
@[simp] theorem fireTests_jam (n : Fin 16) (name : RecordName) (s : State) : (fireTests n name s).jam = s.jam := (fireTests_frame n name s).2.2.1
@[simp] theorem fireTests_rate (n : Fin 16) (name : RecordName) (s : State) : (fireTests n name s).rate = s.rate := (fireTests_frame n name s).2.2.2.1
@[simp] theorem fireTests_sup (n : Fin 16) (name : RecordName) (s : State) : (fireTests n name s).sup = s.sup := (fireTests_frame n name s).2.2.2.2.1
@[simp] theorem fireTests_tables (n : Fin 16) (name : RecordName) (s : State) : (fireTests n name s).tables = s.tables := (fireTests_frame n name s).2.2.2.2.2.1
@[simp] theorem fireTests_notices (n : Fin 16) (name : RecordName) (s : State) : (fireTests n name s).notices = s.notices := (fireTests_frame n name s).2.2.2.2.2.2.1
@[simp] theorem fireTests_lrx (n : Fin 16) (name : RecordName) (s : State) : (fireTests n name s).lrx = s.lrx := (fireTests_frame n name s).2.2.2.2.2.2.2.1
@[simp] theorem fireTests_ltx (n : Fin 16) (name : RecordName) (s : State) : (fireTests n name s).ltx = s.ltx := (fireTests_frame n name s).2.2.2.2.2.2.2.2.1
@[simp] theorem fireTests_unstated (n : Fin 16) (name : RecordName) (s : State) : (fireTests n name s).unstated = s.unstated := (fireTests_frame n name s).2.2.2.2.2.2.2.2.2.1
@[simp] theorem fireTests_pending (n : Fin 16) (name : RecordName) (s : State) : (fireTests n name s).pending = s.pending := (fireTests_frame n name s).2.2.2.2.2.2.2.2.2.2

theorem retestDue_frame (n : Fin 16) (s : State) :
    let t := retestDue n s
    t.now = s.now ∧ t.held = s.held ∧ t.jam = s.jam ∧ t.rate = s.rate ∧ t.sup = s.sup ∧ t.tables = s.tables ∧ t.notices = s.notices ∧ t.lrx = s.lrx ∧ t.ltx = s.ltx ∧ t.unstated = s.unstated ∧ t.pending = s.pending := by
  unfold retestDue; dsimp only; (repeat' split) <;> simp
@[simp] theorem retestDue_now (n : Fin 16) (s : State) : (retestDue n s).now = s.now := (retestDue_frame n s).1
@[simp] theorem retestDue_held (n : Fin 16) (s : State) : (retestDue n s).held = s.held := (retestDue_frame n s).2.1
@[simp] theorem retestDue_jam (n : Fin 16) (s : State) : (retestDue n s).jam = s.jam := (retestDue_frame n s).2.2.1
@[simp] theorem retestDue_rate (n : Fin 16) (s : State) : (retestDue n s).rate = s.rate := (retestDue_frame n s).2.2.2.1
@[simp] theorem retestDue_sup (n : Fin 16) (s : State) : (retestDue n s).sup = s.sup := (retestDue_frame n s).2.2.2.2.1
@[simp] theorem retestDue_tables (n : Fin 16) (s : State) : (retestDue n s).tables = s.tables := (retestDue_frame n s).2.2.2.2.2.1
@[simp] theorem retestDue_notices (n : Fin 16) (s : State) : (retestDue n s).notices = s.notices := (retestDue_frame n s).2.2.2.2.2.2.1
@[simp] theorem retestDue_lrx (n : Fin 16) (s : State) : (retestDue n s).lrx = s.lrx := (retestDue_frame n s).2.2.2.2.2.2.2.1
@[simp] theorem retestDue_ltx (n : Fin 16) (s : State) : (retestDue n s).ltx = s.ltx := (retestDue_frame n s).2.2.2.2.2.2.2.2.1
@[simp] theorem retestDue_unstated (n : Fin 16) (s : State) : (retestDue n s).unstated = s.unstated := (retestDue_frame n s).2.2.2.2.2.2.2.2.2.1
@[simp] theorem retestDue_pending (n : Fin 16) (s : State) : (retestDue n s).pending = s.pending := (retestDue_frame n s).2.2.2.2.2.2.2.2.2.2

theorem startDelay_frame (n : Fin 16) (name : RecordName) (d : Nat) (s : State) :
    let t := startDelay n name d s
    t.now = s.now ∧ t.held = s.held ∧ t.jam = s.jam ∧ t.rate = s.rate ∧ t.sup = s.sup ∧ t.tables = s.tables ∧ t.notices = s.notices ∧ t.lrx = s.lrx ∧ t.ltx = s.ltx ∧ t.unstated = s.unstated ∧ t.pending = s.pending := by
  unfold startDelay; dsimp only; (repeat' split) <;> simp
@[simp] theorem startDelay_now (n : Fin 16) (name : RecordName) (d : Nat) (s : State) : (startDelay n name d s).now = s.now := (startDelay_frame n name d s).1
@[simp] theorem startDelay_held (n : Fin 16) (name : RecordName) (d : Nat) (s : State) : (startDelay n name d s).held = s.held := (startDelay_frame n name d s).2.1
@[simp] theorem startDelay_jam (n : Fin 16) (name : RecordName) (d : Nat) (s : State) : (startDelay n name d s).jam = s.jam := (startDelay_frame n name d s).2.2.1
@[simp] theorem startDelay_rate (n : Fin 16) (name : RecordName) (d : Nat) (s : State) : (startDelay n name d s).rate = s.rate := (startDelay_frame n name d s).2.2.2.1
@[simp] theorem startDelay_sup (n : Fin 16) (name : RecordName) (d : Nat) (s : State) : (startDelay n name d s).sup = s.sup := (startDelay_frame n name d s).2.2.2.2.1
@[simp] theorem startDelay_tables (n : Fin 16) (name : RecordName) (d : Nat) (s : State) : (startDelay n name d s).tables = s.tables := (startDelay_frame n name d s).2.2.2.2.2.1
@[simp] theorem startDelay_notices (n : Fin 16) (name : RecordName) (d : Nat) (s : State) : (startDelay n name d s).notices = s.notices := (startDelay_frame n name d s).2.2.2.2.2.2.1
@[simp] theorem startDelay_lrx (n : Fin 16) (name : RecordName) (d : Nat) (s : State) : (startDelay n name d s).lrx = s.lrx := (startDelay_frame n name d s).2.2.2.2.2.2.2.1
@[simp] theorem startDelay_ltx (n : Fin 16) (name : RecordName) (d : Nat) (s : State) : (startDelay n name d s).ltx = s.ltx := (startDelay_frame n name d s).2.2.2.2.2.2.2.2.1
@[simp] theorem startDelay_unstated (n : Fin 16) (name : RecordName) (d : Nat) (s : State) : (startDelay n name d s).unstated = s.unstated := (startDelay_frame n name d s).2.2.2.2.2.2.2.2.2.1
@[simp] theorem startDelay_pending (n : Fin 16) (name : RecordName) (d : Nat) (s : State) : (startDelay n name d s).pending = s.pending := (startDelay_frame n name d s).2.2.2.2.2.2.2.2.2.2

theorem pass_frame (n : Fin 16) (s : State) :
    let t := pass n s
    t.now = s.now ∧ t.held = s.held ∧ t.jam = s.jam ∧ t.rate = s.rate ∧ t.sup = s.sup ∧ t.tables = s.tables ∧ t.notices = s.notices ∧ t.lrx = s.lrx ∧ t.ltx = s.ltx ∧ t.unstated = s.unstated ∧ t.pending = s.pending := by
  unfold pass; dsimp only; (repeat' split) <;> simp
@[simp] theorem pass_now (n : Fin 16) (s : State) : (pass n s).now = s.now := (pass_frame n s).1
@[simp] theorem pass_held (n : Fin 16) (s : State) : (pass n s).held = s.held := (pass_frame n s).2.1
@[simp] theorem pass_jam (n : Fin 16) (s : State) : (pass n s).jam = s.jam := (pass_frame n s).2.2.1
@[simp] theorem pass_rate (n : Fin 16) (s : State) : (pass n s).rate = s.rate := (pass_frame n s).2.2.2.1
@[simp] theorem pass_sup (n : Fin 16) (s : State) : (pass n s).sup = s.sup := (pass_frame n s).2.2.2.2.1
@[simp] theorem pass_tables (n : Fin 16) (s : State) : (pass n s).tables = s.tables := (pass_frame n s).2.2.2.2.2.1
@[simp] theorem pass_notices (n : Fin 16) (s : State) : (pass n s).notices = s.notices := (pass_frame n s).2.2.2.2.2.2.1
@[simp] theorem pass_lrx (n : Fin 16) (s : State) : (pass n s).lrx = s.lrx := (pass_frame n s).2.2.2.2.2.2.2.1
@[simp] theorem pass_ltx (n : Fin 16) (s : State) : (pass n s).ltx = s.ltx := (pass_frame n s).2.2.2.2.2.2.2.2.1
@[simp] theorem pass_unstated (n : Fin 16) (s : State) : (pass n s).unstated = s.unstated := (pass_frame n s).2.2.2.2.2.2.2.2.2.1
@[simp] theorem pass_pending (n : Fin 16) (s : State) : (pass n s).pending = s.pending := (pass_frame n s).2.2.2.2.2.2.2.2.2.2

theorem arrival_frame (n : Fin 16) (e : OutletEntry) (r : PocketRecord) (s : State) :
    let t := arrival n e r s
    t.now = s.now ∧ t.held = s.held ∧ t.jam = s.jam ∧ t.rate = s.rate ∧ t.sup = s.sup ∧ t.tables = s.tables ∧ t.notices = s.notices ∧ t.lrx = s.lrx ∧ t.ltx = s.ltx ∧ t.unstated = s.unstated ∧ t.pending = s.pending := by
  unfold arrival; dsimp only; (repeat' split) <;> simp
@[simp] theorem arrival_now (n : Fin 16) (e : OutletEntry) (r : PocketRecord) (s : State) : (arrival n e r s).now = s.now := (arrival_frame n e r s).1
@[simp] theorem arrival_held (n : Fin 16) (e : OutletEntry) (r : PocketRecord) (s : State) : (arrival n e r s).held = s.held := (arrival_frame n e r s).2.1
@[simp] theorem arrival_jam (n : Fin 16) (e : OutletEntry) (r : PocketRecord) (s : State) : (arrival n e r s).jam = s.jam := (arrival_frame n e r s).2.2.1
@[simp] theorem arrival_rate (n : Fin 16) (e : OutletEntry) (r : PocketRecord) (s : State) : (arrival n e r s).rate = s.rate := (arrival_frame n e r s).2.2.2.1
@[simp] theorem arrival_sup (n : Fin 16) (e : OutletEntry) (r : PocketRecord) (s : State) : (arrival n e r s).sup = s.sup := (arrival_frame n e r s).2.2.2.2.1
@[simp] theorem arrival_tables (n : Fin 16) (e : OutletEntry) (r : PocketRecord) (s : State) : (arrival n e r s).tables = s.tables := (arrival_frame n e r s).2.2.2.2.2.1
@[simp] theorem arrival_notices (n : Fin 16) (e : OutletEntry) (r : PocketRecord) (s : State) : (arrival n e r s).notices = s.notices := (arrival_frame n e r s).2.2.2.2.2.2.1
@[simp] theorem arrival_lrx (n : Fin 16) (e : OutletEntry) (r : PocketRecord) (s : State) : (arrival n e r s).lrx = s.lrx := (arrival_frame n e r s).2.2.2.2.2.2.2.1
@[simp] theorem arrival_ltx (n : Fin 16) (e : OutletEntry) (r : PocketRecord) (s : State) : (arrival n e r s).ltx = s.ltx := (arrival_frame n e r s).2.2.2.2.2.2.2.2.1
@[simp] theorem arrival_unstated (n : Fin 16) (e : OutletEntry) (r : PocketRecord) (s : State) : (arrival n e r s).unstated = s.unstated := (arrival_frame n e r s).2.2.2.2.2.2.2.2.2.1
@[simp] theorem arrival_pending (n : Fin 16) (e : OutletEntry) (r : PocketRecord) (s : State) : (arrival n e r s).pending = s.pending := (arrival_frame n e r s).2.2.2.2.2.2.2.2.2.2

theorem handOff_frame (n : Fin 16) (s : State) :
    let t := handOff n s
    t.now = s.now ∧ t.held = s.held ∧ t.jam = s.jam ∧ t.rate = s.rate ∧ t.sup = s.sup ∧ t.tables = s.tables ∧ t.notices = s.notices ∧ t.lrx = s.lrx ∧ t.ltx = s.ltx ∧ t.unstated = s.unstated ∧ t.pending = s.pending := by
  unfold handOff; dsimp only; (repeat' split) <;> simp
@[simp] theorem handOff_now (n : Fin 16) (s : State) : (handOff n s).now = s.now := (handOff_frame n s).1
@[simp] theorem handOff_held (n : Fin 16) (s : State) : (handOff n s).held = s.held := (handOff_frame n s).2.1
@[simp] theorem handOff_jam (n : Fin 16) (s : State) : (handOff n s).jam = s.jam := (handOff_frame n s).2.2.1
@[simp] theorem handOff_rate (n : Fin 16) (s : State) : (handOff n s).rate = s.rate := (handOff_frame n s).2.2.2.1
@[simp] theorem handOff_sup (n : Fin 16) (s : State) : (handOff n s).sup = s.sup := (handOff_frame n s).2.2.2.2.1
@[simp] theorem handOff_tables (n : Fin 16) (s : State) : (handOff n s).tables = s.tables := (handOff_frame n s).2.2.2.2.2.1
@[simp] theorem handOff_notices (n : Fin 16) (s : State) : (handOff n s).notices = s.notices := (handOff_frame n s).2.2.2.2.2.2.1
@[simp] theorem handOff_lrx (n : Fin 16) (s : State) : (handOff n s).lrx = s.lrx := (handOff_frame n s).2.2.2.2.2.2.2.1
@[simp] theorem handOff_ltx (n : Fin 16) (s : State) : (handOff n s).ltx = s.ltx := (handOff_frame n s).2.2.2.2.2.2.2.2.1
@[simp] theorem handOff_unstated (n : Fin 16) (s : State) : (handOff n s).unstated = s.unstated := (handOff_frame n s).2.2.2.2.2.2.2.2.2.1
@[simp] theorem handOff_pending (n : Fin 16) (s : State) : (handOff n s).pending = s.pending := (handOff_frame n s).2.2.2.2.2.2.2.2.2.2

theorem strandSlot_frame (n : Fin 16) (s : State) :
    let t := strandSlot n s
    t.now = s.now ∧ t.held = s.held ∧ t.jam = s.jam ∧ t.rate = s.rate ∧ t.sup = s.sup ∧ t.tables = s.tables ∧ t.notices = s.notices ∧ t.lrx = s.lrx ∧ t.ltx = s.ltx ∧ t.unstated = s.unstated ∧ t.pending = s.pending := by
  unfold strandSlot; dsimp only; (repeat' split) <;> simp
@[simp] theorem strandSlot_now (n : Fin 16) (s : State) : (strandSlot n s).now = s.now := (strandSlot_frame n s).1
@[simp] theorem strandSlot_held (n : Fin 16) (s : State) : (strandSlot n s).held = s.held := (strandSlot_frame n s).2.1
@[simp] theorem strandSlot_jam (n : Fin 16) (s : State) : (strandSlot n s).jam = s.jam := (strandSlot_frame n s).2.2.1
@[simp] theorem strandSlot_rate (n : Fin 16) (s : State) : (strandSlot n s).rate = s.rate := (strandSlot_frame n s).2.2.2.1
@[simp] theorem strandSlot_sup (n : Fin 16) (s : State) : (strandSlot n s).sup = s.sup := (strandSlot_frame n s).2.2.2.2.1
@[simp] theorem strandSlot_tables (n : Fin 16) (s : State) : (strandSlot n s).tables = s.tables := (strandSlot_frame n s).2.2.2.2.2.1
@[simp] theorem strandSlot_notices (n : Fin 16) (s : State) : (strandSlot n s).notices = s.notices := (strandSlot_frame n s).2.2.2.2.2.2.1
@[simp] theorem strandSlot_lrx (n : Fin 16) (s : State) : (strandSlot n s).lrx = s.lrx := (strandSlot_frame n s).2.2.2.2.2.2.2.1
@[simp] theorem strandSlot_ltx (n : Fin 16) (s : State) : (strandSlot n s).ltx = s.ltx := (strandSlot_frame n s).2.2.2.2.2.2.2.2.1
@[simp] theorem strandSlot_unstated (n : Fin 16) (s : State) : (strandSlot n s).unstated = s.unstated := (strandSlot_frame n s).2.2.2.2.2.2.2.2.2.1
@[simp] theorem strandSlot_pending (n : Fin 16) (s : State) : (strandSlot n s).pending = s.pending := (strandSlot_frame n s).2.2.2.2.2.2.2.2.2.2

theorem faultOutlet_frame (n : Fin 16) (s : State) :
    let t := faultOutlet n s
    t.now = s.now ∧ t.held = s.held ∧ t.jam = s.jam ∧ t.rate = s.rate ∧ t.sup = s.sup ∧ t.tables = s.tables ∧ t.lrx = s.lrx ∧ t.ltx = s.ltx ∧ t.unstated = s.unstated ∧ t.pending = s.pending := by
  unfold faultOutlet; dsimp only; (repeat' split) <;> simp
@[simp] theorem faultOutlet_now (n : Fin 16) (s : State) : (faultOutlet n s).now = s.now := (faultOutlet_frame n s).1
@[simp] theorem faultOutlet_held (n : Fin 16) (s : State) : (faultOutlet n s).held = s.held := (faultOutlet_frame n s).2.1
@[simp] theorem faultOutlet_jam (n : Fin 16) (s : State) : (faultOutlet n s).jam = s.jam := (faultOutlet_frame n s).2.2.1
@[simp] theorem faultOutlet_rate (n : Fin 16) (s : State) : (faultOutlet n s).rate = s.rate := (faultOutlet_frame n s).2.2.2.1
@[simp] theorem faultOutlet_sup (n : Fin 16) (s : State) : (faultOutlet n s).sup = s.sup := (faultOutlet_frame n s).2.2.2.2.1
@[simp] theorem faultOutlet_tables (n : Fin 16) (s : State) : (faultOutlet n s).tables = s.tables := (faultOutlet_frame n s).2.2.2.2.2.1
@[simp] theorem faultOutlet_lrx (n : Fin 16) (s : State) : (faultOutlet n s).lrx = s.lrx := (faultOutlet_frame n s).2.2.2.2.2.2.1
@[simp] theorem faultOutlet_ltx (n : Fin 16) (s : State) : (faultOutlet n s).ltx = s.ltx := (faultOutlet_frame n s).2.2.2.2.2.2.2.1
@[simp] theorem faultOutlet_unstated (n : Fin 16) (s : State) : (faultOutlet n s).unstated = s.unstated := (faultOutlet_frame n s).2.2.2.2.2.2.2.2.1
@[simp] theorem faultOutlet_pending (n : Fin 16) (s : State) : (faultOutlet n s).pending = s.pending := (faultOutlet_frame n s).2.2.2.2.2.2.2.2.2

theorem accountMiss_frame (n : Fin 16) (s : State) :
    let t := accountMiss n s
    t.now = s.now ∧ t.held = s.held ∧ t.jam = s.jam ∧ t.rate = s.rate ∧ t.sup = s.sup ∧ t.tables = s.tables ∧ t.lrx = s.lrx ∧ t.ltx = s.ltx ∧ t.unstated = s.unstated ∧ t.pending = s.pending := by
  unfold accountMiss; dsimp only; (repeat' split) <;> simp
@[simp] theorem accountMiss_now (n : Fin 16) (s : State) : (accountMiss n s).now = s.now := (accountMiss_frame n s).1
@[simp] theorem accountMiss_held (n : Fin 16) (s : State) : (accountMiss n s).held = s.held := (accountMiss_frame n s).2.1
@[simp] theorem accountMiss_jam (n : Fin 16) (s : State) : (accountMiss n s).jam = s.jam := (accountMiss_frame n s).2.2.1
@[simp] theorem accountMiss_rate (n : Fin 16) (s : State) : (accountMiss n s).rate = s.rate := (accountMiss_frame n s).2.2.2.1
@[simp] theorem accountMiss_sup (n : Fin 16) (s : State) : (accountMiss n s).sup = s.sup := (accountMiss_frame n s).2.2.2.2.1
@[simp] theorem accountMiss_tables (n : Fin 16) (s : State) : (accountMiss n s).tables = s.tables := (accountMiss_frame n s).2.2.2.2.2.1
@[simp] theorem accountMiss_lrx (n : Fin 16) (s : State) : (accountMiss n s).lrx = s.lrx := (accountMiss_frame n s).2.2.2.2.2.2.1
@[simp] theorem accountMiss_ltx (n : Fin 16) (s : State) : (accountMiss n s).ltx = s.ltx := (accountMiss_frame n s).2.2.2.2.2.2.2.1
@[simp] theorem accountMiss_unstated (n : Fin 16) (s : State) : (accountMiss n s).unstated = s.unstated := (accountMiss_frame n s).2.2.2.2.2.2.2.2.1
@[simp] theorem accountMiss_pending (n : Fin 16) (s : State) : (accountMiss n s).pending = s.pending := (accountMiss_frame n s).2.2.2.2.2.2.2.2.2

theorem missEntryOf_frame (name : RecordName) (s : State) :
    let t := missEntryOf name s
    t.now = s.now ∧ t.held = s.held ∧ t.jam = s.jam ∧ t.rate = s.rate ∧ t.sup = s.sup ∧ t.tables = s.tables ∧ t.lrx = s.lrx ∧ t.ltx = s.ltx ∧ t.unstated = s.unstated ∧ t.pending = s.pending := by
  unfold missEntryOf; dsimp only; (repeat' split) <;> simp
@[simp] theorem missEntryOf_now (name : RecordName) (s : State) : (missEntryOf name s).now = s.now := (missEntryOf_frame name s).1
@[simp] theorem missEntryOf_held (name : RecordName) (s : State) : (missEntryOf name s).held = s.held := (missEntryOf_frame name s).2.1
@[simp] theorem missEntryOf_jam (name : RecordName) (s : State) : (missEntryOf name s).jam = s.jam := (missEntryOf_frame name s).2.2.1
@[simp] theorem missEntryOf_rate (name : RecordName) (s : State) : (missEntryOf name s).rate = s.rate := (missEntryOf_frame name s).2.2.2.1
@[simp] theorem missEntryOf_sup (name : RecordName) (s : State) : (missEntryOf name s).sup = s.sup := (missEntryOf_frame name s).2.2.2.2.1
@[simp] theorem missEntryOf_tables (name : RecordName) (s : State) : (missEntryOf name s).tables = s.tables := (missEntryOf_frame name s).2.2.2.2.2.1
@[simp] theorem missEntryOf_lrx (name : RecordName) (s : State) : (missEntryOf name s).lrx = s.lrx := (missEntryOf_frame name s).2.2.2.2.2.2.1
@[simp] theorem missEntryOf_ltx (name : RecordName) (s : State) : (missEntryOf name s).ltx = s.ltx := (missEntryOf_frame name s).2.2.2.2.2.2.2.1
@[simp] theorem missEntryOf_unstated (name : RecordName) (s : State) : (missEntryOf name s).unstated = s.unstated := (missEntryOf_frame name s).2.2.2.2.2.2.2.2.1
@[simp] theorem missEntryOf_pending (name : RecordName) (s : State) : (missEntryOf name s).pending = s.pending := (missEntryOf_frame name s).2.2.2.2.2.2.2.2.2

theorem missFate_frame (n : Fin 16) (e : Entry) (s : State) :
    let t := missFate n e s
    t.now = s.now ∧ t.held = s.held ∧ t.jam = s.jam ∧ t.rate = s.rate ∧ t.outlets = s.outlets ∧ t.tables = s.tables ∧ t.lrx = s.lrx ∧ t.unstated = s.unstated ∧ t.pending = s.pending := by
  unfold missFate; dsimp only; (repeat' split) <;> simp
@[simp] theorem missFate_now (n : Fin 16) (e : Entry) (s : State) : (missFate n e s).now = s.now := (missFate_frame n e s).1
@[simp] theorem missFate_held (n : Fin 16) (e : Entry) (s : State) : (missFate n e s).held = s.held := (missFate_frame n e s).2.1
@[simp] theorem missFate_jam (n : Fin 16) (e : Entry) (s : State) : (missFate n e s).jam = s.jam := (missFate_frame n e s).2.2.1
@[simp] theorem missFate_rate (n : Fin 16) (e : Entry) (s : State) : (missFate n e s).rate = s.rate := (missFate_frame n e s).2.2.2.1
@[simp] theorem missFate_outlets (n : Fin 16) (e : Entry) (s : State) : (missFate n e s).outlets = s.outlets := (missFate_frame n e s).2.2.2.2.1
@[simp] theorem missFate_tables (n : Fin 16) (e : Entry) (s : State) : (missFate n e s).tables = s.tables := (missFate_frame n e s).2.2.2.2.2.1
@[simp] theorem missFate_lrx (n : Fin 16) (e : Entry) (s : State) : (missFate n e s).lrx = s.lrx := (missFate_frame n e s).2.2.2.2.2.2.1
@[simp] theorem missFate_unstated (n : Fin 16) (e : Entry) (s : State) : (missFate n e s).unstated = s.unstated := (missFate_frame n e s).2.2.2.2.2.2.2.1
@[simp] theorem missFate_pending (n : Fin 16) (e : Entry) (s : State) : (missFate n e s).pending = s.pending := (missFate_frame n e s).2.2.2.2.2.2.2.2

theorem missHead_frame (n : Fin 16) (e : Entry) (rest : List Entry) (s : State) :
    let t := missHead n e rest s
    t.now = s.now ∧ t.held = s.held ∧ t.jam = s.jam ∧ t.rate = s.rate ∧ t.tables = s.tables ∧ t.lrx = s.lrx ∧ t.unstated = s.unstated ∧ t.pending = s.pending := by
  unfold missHead; dsimp only; simp
@[simp] theorem missHead_now (n : Fin 16) (e : Entry) (rest : List Entry) (s : State) : (missHead n e rest s).now = s.now := (missHead_frame n e rest s).1
@[simp] theorem missHead_held (n : Fin 16) (e : Entry) (rest : List Entry) (s : State) : (missHead n e rest s).held = s.held := (missHead_frame n e rest s).2.1
@[simp] theorem missHead_jam (n : Fin 16) (e : Entry) (rest : List Entry) (s : State) : (missHead n e rest s).jam = s.jam := (missHead_frame n e rest s).2.2.1
@[simp] theorem missHead_rate (n : Fin 16) (e : Entry) (rest : List Entry) (s : State) : (missHead n e rest s).rate = s.rate := (missHead_frame n e rest s).2.2.2.1
@[simp] theorem missHead_tables (n : Fin 16) (e : Entry) (rest : List Entry) (s : State) : (missHead n e rest s).tables = s.tables := (missHead_frame n e rest s).2.2.2.2.1
@[simp] theorem missHead_lrx (n : Fin 16) (e : Entry) (rest : List Entry) (s : State) : (missHead n e rest s).lrx = s.lrx := (missHead_frame n e rest s).2.2.2.2.2.1
@[simp] theorem missHead_unstated (n : Fin 16) (e : Entry) (rest : List Entry) (s : State) : (missHead n e rest s).unstated = s.unstated := (missHead_frame n e rest s).2.2.2.2.2.2.1
@[simp] theorem missHead_pending (n : Fin 16) (e : Entry) (rest : List Entry) (s : State) : (missHead n e rest s).pending = s.pending := (missHead_frame n e rest s).2.2.2.2.2.2.2

theorem raiseFull_frame (n : Fin 16) (e : Entry) (c : OutletEntry) (b : Nat) (s : State) :
    let t := raiseFull n e c b s
    t.now = s.now ∧ t.held = s.held ∧ t.jam = s.jam ∧ t.rate = s.rate ∧ t.tracker = s.tracker ∧ t.tables = s.tables ∧ t.lrx = s.lrx ∧ t.ltx = s.ltx ∧ t.unstated = s.unstated ∧ t.pending = s.pending := by
  unfold raiseFull; dsimp only; (repeat' split) <;> simp
@[simp] theorem raiseFull_now (n : Fin 16) (e : Entry) (c : OutletEntry) (b : Nat) (s : State) : (raiseFull n e c b s).now = s.now := (raiseFull_frame n e c b s).1
@[simp] theorem raiseFull_held (n : Fin 16) (e : Entry) (c : OutletEntry) (b : Nat) (s : State) : (raiseFull n e c b s).held = s.held := (raiseFull_frame n e c b s).2.1
@[simp] theorem raiseFull_jam (n : Fin 16) (e : Entry) (c : OutletEntry) (b : Nat) (s : State) : (raiseFull n e c b s).jam = s.jam := (raiseFull_frame n e c b s).2.2.1
@[simp] theorem raiseFull_rate (n : Fin 16) (e : Entry) (c : OutletEntry) (b : Nat) (s : State) : (raiseFull n e c b s).rate = s.rate := (raiseFull_frame n e c b s).2.2.2.1
@[simp] theorem raiseFull_tracker (n : Fin 16) (e : Entry) (c : OutletEntry) (b : Nat) (s : State) : (raiseFull n e c b s).tracker = s.tracker := (raiseFull_frame n e c b s).2.2.2.2.1
@[simp] theorem raiseFull_tables (n : Fin 16) (e : Entry) (c : OutletEntry) (b : Nat) (s : State) : (raiseFull n e c b s).tables = s.tables := (raiseFull_frame n e c b s).2.2.2.2.2.1
@[simp] theorem raiseFull_lrx (n : Fin 16) (e : Entry) (c : OutletEntry) (b : Nat) (s : State) : (raiseFull n e c b s).lrx = s.lrx := (raiseFull_frame n e c b s).2.2.2.2.2.2.1
@[simp] theorem raiseFull_ltx (n : Fin 16) (e : Entry) (c : OutletEntry) (b : Nat) (s : State) : (raiseFull n e c b s).ltx = s.ltx := (raiseFull_frame n e c b s).2.2.2.2.2.2.2.1
@[simp] theorem raiseFull_unstated (n : Fin 16) (e : Entry) (c : OutletEntry) (b : Nat) (s : State) : (raiseFull n e c b s).unstated = s.unstated := (raiseFull_frame n e c b s).2.2.2.2.2.2.2.2.1
@[simp] theorem raiseFull_pending (n : Fin 16) (e : Entry) (c : OutletEntry) (b : Nat) (s : State) : (raiseFull n e c b s).pending = s.pending := (raiseFull_frame n e c b s).2.2.2.2.2.2.2.2.2

theorem confirmRecord_frame (n : Fin 16) (e : Entry) (w : Bool) (s : State) :
    let t := confirmRecord n e w s
    t.now = s.now ∧ t.held = s.held ∧ t.jam = s.jam ∧ t.rate = s.rate ∧ t.outlets = s.outlets ∧ t.sup = s.sup ∧ t.tables = s.tables ∧ t.notices = s.notices ∧ t.lrx = s.lrx ∧ t.unstated = s.unstated ∧ t.pending = s.pending := by
  unfold confirmRecord; dsimp only; (repeat' split) <;> simp
@[simp] theorem confirmRecord_now (n : Fin 16) (e : Entry) (w : Bool) (s : State) : (confirmRecord n e w s).now = s.now := (confirmRecord_frame n e w s).1
@[simp] theorem confirmRecord_held (n : Fin 16) (e : Entry) (w : Bool) (s : State) : (confirmRecord n e w s).held = s.held := (confirmRecord_frame n e w s).2.1
@[simp] theorem confirmRecord_jam (n : Fin 16) (e : Entry) (w : Bool) (s : State) : (confirmRecord n e w s).jam = s.jam := (confirmRecord_frame n e w s).2.2.1
@[simp] theorem confirmRecord_rate (n : Fin 16) (e : Entry) (w : Bool) (s : State) : (confirmRecord n e w s).rate = s.rate := (confirmRecord_frame n e w s).2.2.2.1
@[simp] theorem confirmRecord_outlets (n : Fin 16) (e : Entry) (w : Bool) (s : State) : (confirmRecord n e w s).outlets = s.outlets := (confirmRecord_frame n e w s).2.2.2.2.1
@[simp] theorem confirmRecord_sup (n : Fin 16) (e : Entry) (w : Bool) (s : State) : (confirmRecord n e w s).sup = s.sup := (confirmRecord_frame n e w s).2.2.2.2.2.1
@[simp] theorem confirmRecord_tables (n : Fin 16) (e : Entry) (w : Bool) (s : State) : (confirmRecord n e w s).tables = s.tables := (confirmRecord_frame n e w s).2.2.2.2.2.2.1
@[simp] theorem confirmRecord_notices (n : Fin 16) (e : Entry) (w : Bool) (s : State) : (confirmRecord n e w s).notices = s.notices := (confirmRecord_frame n e w s).2.2.2.2.2.2.2.1
@[simp] theorem confirmRecord_lrx (n : Fin 16) (e : Entry) (w : Bool) (s : State) : (confirmRecord n e w s).lrx = s.lrx := (confirmRecord_frame n e w s).2.2.2.2.2.2.2.2.1
@[simp] theorem confirmRecord_unstated (n : Fin 16) (e : Entry) (w : Bool) (s : State) : (confirmRecord n e w s).unstated = s.unstated := (confirmRecord_frame n e w s).2.2.2.2.2.2.2.2.2.1
@[simp] theorem confirmRecord_pending (n : Fin 16) (e : Entry) (w : Bool) (s : State) : (confirmRecord n e w s).pending = s.pending := (confirmRecord_frame n e w s).2.2.2.2.2.2.2.2.2.2

theorem confirmHead_frame (n : Fin 16) (c : OutletEntry) (e : Entry) (rest : List Entry) (s : State) :
    let t := confirmHead n c e rest s
    t.now = s.now ∧ t.held = s.held ∧ t.jam = s.jam ∧ t.rate = s.rate ∧ t.tables = s.tables ∧ t.lrx = s.lrx ∧ t.unstated = s.unstated ∧ t.pending = s.pending := by
  unfold confirmHead; dsimp only; simp
@[simp] theorem confirmHead_now (n : Fin 16) (c : OutletEntry) (e : Entry) (rest : List Entry) (s : State) : (confirmHead n c e rest s).now = s.now := (confirmHead_frame n c e rest s).1
@[simp] theorem confirmHead_held (n : Fin 16) (c : OutletEntry) (e : Entry) (rest : List Entry) (s : State) : (confirmHead n c e rest s).held = s.held := (confirmHead_frame n c e rest s).2.1
@[simp] theorem confirmHead_jam (n : Fin 16) (c : OutletEntry) (e : Entry) (rest : List Entry) (s : State) : (confirmHead n c e rest s).jam = s.jam := (confirmHead_frame n c e rest s).2.2.1
@[simp] theorem confirmHead_rate (n : Fin 16) (c : OutletEntry) (e : Entry) (rest : List Entry) (s : State) : (confirmHead n c e rest s).rate = s.rate := (confirmHead_frame n c e rest s).2.2.2.1
@[simp] theorem confirmHead_tables (n : Fin 16) (c : OutletEntry) (e : Entry) (rest : List Entry) (s : State) : (confirmHead n c e rest s).tables = s.tables := (confirmHead_frame n c e rest s).2.2.2.2.1
@[simp] theorem confirmHead_lrx (n : Fin 16) (c : OutletEntry) (e : Entry) (rest : List Entry) (s : State) : (confirmHead n c e rest s).lrx = s.lrx := (confirmHead_frame n c e rest s).2.2.2.2.2.1
@[simp] theorem confirmHead_unstated (n : Fin 16) (c : OutletEntry) (e : Entry) (rest : List Entry) (s : State) : (confirmHead n c e rest s).unstated = s.unstated := (confirmHead_frame n c e rest s).2.2.2.2.2.2.1
@[simp] theorem confirmHead_pending (n : Fin 16) (c : OutletEntry) (e : Entry) (rest : List Entry) (s : State) : (confirmHead n c e rest s).pending = s.pending := (confirmHead_frame n c e rest s).2.2.2.2.2.2.2

theorem takeDrop_frame (n : Fin 16) (c : OutletEntry) (s : State) :
    let t := takeDrop n c s
    t.now = s.now ∧ t.held = s.held ∧ t.jam = s.jam ∧ t.rate = s.rate ∧ t.tables = s.tables ∧ t.lrx = s.lrx ∧ t.unstated = s.unstated ∧ t.pending = s.pending := by
  unfold takeDrop; dsimp only; (repeat' split) <;> simp
@[simp] theorem takeDrop_now (n : Fin 16) (c : OutletEntry) (s : State) : (takeDrop n c s).now = s.now := (takeDrop_frame n c s).1
@[simp] theorem takeDrop_held (n : Fin 16) (c : OutletEntry) (s : State) : (takeDrop n c s).held = s.held := (takeDrop_frame n c s).2.1
@[simp] theorem takeDrop_jam (n : Fin 16) (c : OutletEntry) (s : State) : (takeDrop n c s).jam = s.jam := (takeDrop_frame n c s).2.2.1
@[simp] theorem takeDrop_rate (n : Fin 16) (c : OutletEntry) (s : State) : (takeDrop n c s).rate = s.rate := (takeDrop_frame n c s).2.2.2.1
@[simp] theorem takeDrop_tables (n : Fin 16) (c : OutletEntry) (s : State) : (takeDrop n c s).tables = s.tables := (takeDrop_frame n c s).2.2.2.2.1
@[simp] theorem takeDrop_lrx (n : Fin 16) (c : OutletEntry) (s : State) : (takeDrop n c s).lrx = s.lrx := (takeDrop_frame n c s).2.2.2.2.2.1
@[simp] theorem takeDrop_unstated (n : Fin 16) (c : OutletEntry) (s : State) : (takeDrop n c s).unstated = s.unstated := (takeDrop_frame n c s).2.2.2.2.2.2.1
@[simp] theorem takeDrop_pending (n : Fin 16) (c : OutletEntry) (s : State) : (takeDrop n c s).pending = s.pending := (takeDrop_frame n c s).2.2.2.2.2.2.2

theorem answerStrobe_frame (n : Fin 16) (c : Option RecordName) (s : State) :
    let t := answerStrobe n c s
    t.now = s.now ∧ t.held = s.held ∧ t.jam = s.jam ∧ t.rate = s.rate ∧ t.sup = s.sup ∧ t.tables = s.tables ∧ t.notices = s.notices ∧ t.lrx = s.lrx ∧ t.ltx = s.ltx ∧ t.unstated = s.unstated ∧ t.pending = s.pending := by
  unfold answerStrobe; dsimp only; (repeat' split) <;> simp
@[simp] theorem answerStrobe_now (n : Fin 16) (c : Option RecordName) (s : State) : (answerStrobe n c s).now = s.now := (answerStrobe_frame n c s).1
@[simp] theorem answerStrobe_held (n : Fin 16) (c : Option RecordName) (s : State) : (answerStrobe n c s).held = s.held := (answerStrobe_frame n c s).2.1
@[simp] theorem answerStrobe_jam (n : Fin 16) (c : Option RecordName) (s : State) : (answerStrobe n c s).jam = s.jam := (answerStrobe_frame n c s).2.2.1
@[simp] theorem answerStrobe_rate (n : Fin 16) (c : Option RecordName) (s : State) : (answerStrobe n c s).rate = s.rate := (answerStrobe_frame n c s).2.2.2.1
@[simp] theorem answerStrobe_sup (n : Fin 16) (c : Option RecordName) (s : State) : (answerStrobe n c s).sup = s.sup := (answerStrobe_frame n c s).2.2.2.2.1
@[simp] theorem answerStrobe_tables (n : Fin 16) (c : Option RecordName) (s : State) : (answerStrobe n c s).tables = s.tables := (answerStrobe_frame n c s).2.2.2.2.2.1
@[simp] theorem answerStrobe_notices (n : Fin 16) (c : Option RecordName) (s : State) : (answerStrobe n c s).notices = s.notices := (answerStrobe_frame n c s).2.2.2.2.2.2.1
@[simp] theorem answerStrobe_lrx (n : Fin 16) (c : Option RecordName) (s : State) : (answerStrobe n c s).lrx = s.lrx := (answerStrobe_frame n c s).2.2.2.2.2.2.2.1
@[simp] theorem answerStrobe_ltx (n : Fin 16) (c : Option RecordName) (s : State) : (answerStrobe n c s).ltx = s.ltx := (answerStrobe_frame n c s).2.2.2.2.2.2.2.2.1
@[simp] theorem answerStrobe_unstated (n : Fin 16) (c : Option RecordName) (s : State) : (answerStrobe n c s).unstated = s.unstated := (answerStrobe_frame n c s).2.2.2.2.2.2.2.2.2.1
@[simp] theorem answerStrobe_pending (n : Fin 16) (c : Option RecordName) (s : State) : (answerStrobe n c s).pending = s.pending := (answerStrobe_frame n c s).2.2.2.2.2.2.2.2.2.2

theorem strandClaim_frame (c : Option RecordName) (s : State) :
    let t := strandClaim c s
    t.now = s.now ∧ t.held = s.held ∧ t.jam = s.jam ∧ t.rate = s.rate ∧ t.sup = s.sup ∧ t.tables = s.tables ∧ t.notices = s.notices ∧ t.lrx = s.lrx ∧ t.ltx = s.ltx ∧ t.unstated = s.unstated ∧ t.pending = s.pending := by
  unfold strandClaim; dsimp only; (repeat' split) <;> simp
@[simp] theorem strandClaim_now (c : Option RecordName) (s : State) : (strandClaim c s).now = s.now := (strandClaim_frame c s).1
@[simp] theorem strandClaim_held (c : Option RecordName) (s : State) : (strandClaim c s).held = s.held := (strandClaim_frame c s).2.1
@[simp] theorem strandClaim_jam (c : Option RecordName) (s : State) : (strandClaim c s).jam = s.jam := (strandClaim_frame c s).2.2.1
@[simp] theorem strandClaim_rate (c : Option RecordName) (s : State) : (strandClaim c s).rate = s.rate := (strandClaim_frame c s).2.2.2.1
@[simp] theorem strandClaim_sup (c : Option RecordName) (s : State) : (strandClaim c s).sup = s.sup := (strandClaim_frame c s).2.2.2.2.1
@[simp] theorem strandClaim_tables (c : Option RecordName) (s : State) : (strandClaim c s).tables = s.tables := (strandClaim_frame c s).2.2.2.2.2.1
@[simp] theorem strandClaim_notices (c : Option RecordName) (s : State) : (strandClaim c s).notices = s.notices := (strandClaim_frame c s).2.2.2.2.2.2.1
@[simp] theorem strandClaim_lrx (c : Option RecordName) (s : State) : (strandClaim c s).lrx = s.lrx := (strandClaim_frame c s).2.2.2.2.2.2.2.1
@[simp] theorem strandClaim_ltx (c : Option RecordName) (s : State) : (strandClaim c s).ltx = s.ltx := (strandClaim_frame c s).2.2.2.2.2.2.2.2.1
@[simp] theorem strandClaim_unstated (c : Option RecordName) (s : State) : (strandClaim c s).unstated = s.unstated := (strandClaim_frame c s).2.2.2.2.2.2.2.2.2.1
@[simp] theorem strandClaim_pending (c : Option RecordName) (s : State) : (strandClaim c s).pending = s.pending := (strandClaim_frame c s).2.2.2.2.2.2.2.2.2.2

theorem prepareUnchecked_frame (r : PocketRecord) (s : State) :
    let t := prepareUnchecked r s
    t.now = s.now ∧ t.held = s.held ∧ t.jam = s.jam ∧ t.rate = s.rate ∧ t.sup = s.sup ∧ t.tables = s.tables ∧ t.lrx = s.lrx ∧ t.ltx = s.ltx ∧ t.unstated = s.unstated ∧ t.pending = s.pending := by
  unfold prepareUnchecked; dsimp only; (repeat' split) <;> simp
@[simp] theorem prepareUnchecked_now (r : PocketRecord) (s : State) : (prepareUnchecked r s).now = s.now := (prepareUnchecked_frame r s).1
@[simp] theorem prepareUnchecked_held (r : PocketRecord) (s : State) : (prepareUnchecked r s).held = s.held := (prepareUnchecked_frame r s).2.1
@[simp] theorem prepareUnchecked_jam (r : PocketRecord) (s : State) : (prepareUnchecked r s).jam = s.jam := (prepareUnchecked_frame r s).2.2.1
@[simp] theorem prepareUnchecked_rate (r : PocketRecord) (s : State) : (prepareUnchecked r s).rate = s.rate := (prepareUnchecked_frame r s).2.2.2.1
@[simp] theorem prepareUnchecked_sup (r : PocketRecord) (s : State) : (prepareUnchecked r s).sup = s.sup := (prepareUnchecked_frame r s).2.2.2.2.1
@[simp] theorem prepareUnchecked_tables (r : PocketRecord) (s : State) : (prepareUnchecked r s).tables = s.tables := (prepareUnchecked_frame r s).2.2.2.2.2.1
@[simp] theorem prepareUnchecked_lrx (r : PocketRecord) (s : State) : (prepareUnchecked r s).lrx = s.lrx := (prepareUnchecked_frame r s).2.2.2.2.2.2.1
@[simp] theorem prepareUnchecked_ltx (r : PocketRecord) (s : State) : (prepareUnchecked r s).ltx = s.ltx := (prepareUnchecked_frame r s).2.2.2.2.2.2.2.1
@[simp] theorem prepareUnchecked_unstated (r : PocketRecord) (s : State) : (prepareUnchecked r s).unstated = s.unstated := (prepareUnchecked_frame r s).2.2.2.2.2.2.2.2.1
@[simp] theorem prepareUnchecked_pending (r : PocketRecord) (s : State) : (prepareUnchecked r s).pending = s.pending := (prepareUnchecked_frame r s).2.2.2.2.2.2.2.2.2

theorem handleUnchecked_frame (s : State) :
    let t := handleUnchecked s
    t.now = s.now ∧ t.held = s.held ∧ t.jam = s.jam ∧ t.rate = s.rate ∧ t.tables = s.tables ∧ t.lrx = s.lrx ∧ t.ltx = s.ltx ∧ t.unstated = s.unstated ∧ t.pending = s.pending := by
  unfold handleUnchecked; dsimp only; (repeat' split) <;> simp
@[simp] theorem handleUnchecked_now (s : State) : (handleUnchecked s).now = s.now := (handleUnchecked_frame s).1
@[simp] theorem handleUnchecked_held (s : State) : (handleUnchecked s).held = s.held := (handleUnchecked_frame s).2.1
@[simp] theorem handleUnchecked_jam (s : State) : (handleUnchecked s).jam = s.jam := (handleUnchecked_frame s).2.2.1
@[simp] theorem handleUnchecked_rate (s : State) : (handleUnchecked s).rate = s.rate := (handleUnchecked_frame s).2.2.2.1
@[simp] theorem handleUnchecked_tables (s : State) : (handleUnchecked s).tables = s.tables := (handleUnchecked_frame s).2.2.2.2.1
@[simp] theorem handleUnchecked_lrx (s : State) : (handleUnchecked s).lrx = s.lrx := (handleUnchecked_frame s).2.2.2.2.2.1
@[simp] theorem handleUnchecked_ltx (s : State) : (handleUnchecked s).ltx = s.ltx := (handleUnchecked_frame s).2.2.2.2.2.2.1
@[simp] theorem handleUnchecked_unstated (s : State) : (handleUnchecked s).unstated = s.unstated := (handleUnchecked_frame s).2.2.2.2.2.2.2.1
@[simp] theorem handleUnchecked_pending (s : State) : (handleUnchecked s).pending = s.pending := (handleUnchecked_frame s).2.2.2.2.2.2.2.2

theorem cancelCheck_frame (s : State) :
    let t := cancelCheck s
    t.now = s.now ∧ t.held = s.held ∧ t.jam = s.jam ∧ t.rate = s.rate ∧ t.tables = s.tables ∧ t.lrx = s.lrx ∧ t.ltx = s.ltx ∧ t.unstated = s.unstated ∧ t.pending = s.pending := by
  unfold cancelCheck; dsimp only; (repeat' split) <;> simp
@[simp] theorem cancelCheck_now (s : State) : (cancelCheck s).now = s.now := (cancelCheck_frame s).1
@[simp] theorem cancelCheck_held (s : State) : (cancelCheck s).held = s.held := (cancelCheck_frame s).2.1
@[simp] theorem cancelCheck_jam (s : State) : (cancelCheck s).jam = s.jam := (cancelCheck_frame s).2.2.1
@[simp] theorem cancelCheck_rate (s : State) : (cancelCheck s).rate = s.rate := (cancelCheck_frame s).2.2.2.1
@[simp] theorem cancelCheck_tables (s : State) : (cancelCheck s).tables = s.tables := (cancelCheck_frame s).2.2.2.2.1
@[simp] theorem cancelCheck_lrx (s : State) : (cancelCheck s).lrx = s.lrx := (cancelCheck_frame s).2.2.2.2.2.1
@[simp] theorem cancelCheck_ltx (s : State) : (cancelCheck s).ltx = s.ltx := (cancelCheck_frame s).2.2.2.2.2.2.1
@[simp] theorem cancelCheck_unstated (s : State) : (cancelCheck s).unstated = s.unstated := (cancelCheck_frame s).2.2.2.2.2.2.2.1
@[simp] theorem cancelCheck_pending (s : State) : (cancelCheck s).pending = s.pending := (cancelCheck_frame s).2.2.2.2.2.2.2.2

theorem retain_frame (r : PocketRecord) (c : Bool) (s : State) :
    let t := retain r c s
    t.now = s.now ∧ t.held = s.held ∧ t.jam = s.jam ∧ t.rate = s.rate ∧ t.tables = s.tables ∧ t.lrx = s.lrx ∧ t.ltx = s.ltx ∧ t.unstated = s.unstated ∧ t.pending = s.pending := by
  unfold retain; dsimp only; simp
@[simp] theorem retain_now (r : PocketRecord) (c : Bool) (s : State) : (retain r c s).now = s.now := (retain_frame r c s).1
@[simp] theorem retain_held (r : PocketRecord) (c : Bool) (s : State) : (retain r c s).held = s.held := (retain_frame r c s).2.1
@[simp] theorem retain_jam (r : PocketRecord) (c : Bool) (s : State) : (retain r c s).jam = s.jam := (retain_frame r c s).2.2.1
@[simp] theorem retain_rate (r : PocketRecord) (c : Bool) (s : State) : (retain r c s).rate = s.rate := (retain_frame r c s).2.2.2.1
@[simp] theorem retain_tables (r : PocketRecord) (c : Bool) (s : State) : (retain r c s).tables = s.tables := (retain_frame r c s).2.2.2.2.1
@[simp] theorem retain_lrx (r : PocketRecord) (c : Bool) (s : State) : (retain r c s).lrx = s.lrx := (retain_frame r c s).2.2.2.2.2.1
@[simp] theorem retain_ltx (r : PocketRecord) (c : Bool) (s : State) : (retain r c s).ltx = s.ltx := (retain_frame r c s).2.2.2.2.2.2.1
@[simp] theorem retain_unstated (r : PocketRecord) (c : Bool) (s : State) : (retain r c s).unstated = s.unstated := (retain_frame r c s).2.2.2.2.2.2.2.1
@[simp] theorem retain_pending (r : PocketRecord) (c : Bool) (s : State) : (retain r c s).pending = s.pending := (retain_frame r c s).2.2.2.2.2.2.2.2

theorem bookAtCheck_frame (r : PocketRecord) (s : State) :
    let t := bookAtCheck r s
    t.now = s.now ∧ t.held = s.held ∧ t.jam = s.jam ∧ t.rate = s.rate ∧ t.outlets = s.outlets ∧ t.tables = s.tables ∧ t.lrx = s.lrx ∧ t.unstated = s.unstated ∧ t.pending = s.pending := by
  unfold bookAtCheck; dsimp only; simp
@[simp] theorem bookAtCheck_now (r : PocketRecord) (s : State) : (bookAtCheck r s).now = s.now := (bookAtCheck_frame r s).1
@[simp] theorem bookAtCheck_held (r : PocketRecord) (s : State) : (bookAtCheck r s).held = s.held := (bookAtCheck_frame r s).2.1
@[simp] theorem bookAtCheck_jam (r : PocketRecord) (s : State) : (bookAtCheck r s).jam = s.jam := (bookAtCheck_frame r s).2.2.1
@[simp] theorem bookAtCheck_rate (r : PocketRecord) (s : State) : (bookAtCheck r s).rate = s.rate := (bookAtCheck_frame r s).2.2.2.1
@[simp] theorem bookAtCheck_outlets (r : PocketRecord) (s : State) : (bookAtCheck r s).outlets = s.outlets := (bookAtCheck_frame r s).2.2.2.2.1
@[simp] theorem bookAtCheck_tables (r : PocketRecord) (s : State) : (bookAtCheck r s).tables = s.tables := (bookAtCheck_frame r s).2.2.2.2.2.1
@[simp] theorem bookAtCheck_lrx (r : PocketRecord) (s : State) : (bookAtCheck r s).lrx = s.lrx := (bookAtCheck_frame r s).2.2.2.2.2.2.1
@[simp] theorem bookAtCheck_unstated (r : PocketRecord) (s : State) : (bookAtCheck r s).unstated = s.unstated := (bookAtCheck_frame r s).2.2.2.2.2.2.2.1
@[simp] theorem bookAtCheck_pending (r : PocketRecord) (s : State) : (bookAtCheck r s).pending = s.pending := (bookAtCheck_frame r s).2.2.2.2.2.2.2.2

theorem sampleClear_frame (r : PocketRecord) (s : State) :
    let t := sampleClear r s
    t.now = s.now ∧ t.held = s.held ∧ t.jam = s.jam ∧ t.rate = s.rate ∧ t.tables = s.tables ∧ t.lrx = s.lrx ∧ t.unstated = s.unstated ∧ t.pending = s.pending := by
  unfold sampleClear; dsimp only; (repeat' split) <;> simp
@[simp] theorem sampleClear_now (r : PocketRecord) (s : State) : (sampleClear r s).now = s.now := (sampleClear_frame r s).1
@[simp] theorem sampleClear_held (r : PocketRecord) (s : State) : (sampleClear r s).held = s.held := (sampleClear_frame r s).2.1
@[simp] theorem sampleClear_jam (r : PocketRecord) (s : State) : (sampleClear r s).jam = s.jam := (sampleClear_frame r s).2.2.1
@[simp] theorem sampleClear_rate (r : PocketRecord) (s : State) : (sampleClear r s).rate = s.rate := (sampleClear_frame r s).2.2.2.1
@[simp] theorem sampleClear_tables (r : PocketRecord) (s : State) : (sampleClear r s).tables = s.tables := (sampleClear_frame r s).2.2.2.2.1
@[simp] theorem sampleClear_lrx (r : PocketRecord) (s : State) : (sampleClear r s).lrx = s.lrx := (sampleClear_frame r s).2.2.2.2.2.1
@[simp] theorem sampleClear_unstated (r : PocketRecord) (s : State) : (sampleClear r s).unstated = s.unstated := (sampleClear_frame r s).2.2.2.2.2.2.1
@[simp] theorem sampleClear_pending (r : PocketRecord) (s : State) : (sampleClear r s).pending = s.pending := (sampleClear_frame r s).2.2.2.2.2.2.2

theorem samplePresent_frame (r : PocketRecord) (s : State) :
    let t := samplePresent r s
    t.now = s.now ∧ t.held = s.held ∧ t.jam = s.jam ∧ t.rate = s.rate ∧ t.tables = s.tables ∧ t.lrx = s.lrx ∧ t.ltx = s.ltx ∧ t.unstated = s.unstated ∧ t.pending = s.pending := by
  unfold samplePresent; dsimp only; (repeat' split) <;> simp
@[simp] theorem samplePresent_now (r : PocketRecord) (s : State) : (samplePresent r s).now = s.now := (samplePresent_frame r s).1
@[simp] theorem samplePresent_held (r : PocketRecord) (s : State) : (samplePresent r s).held = s.held := (samplePresent_frame r s).2.1
@[simp] theorem samplePresent_jam (r : PocketRecord) (s : State) : (samplePresent r s).jam = s.jam := (samplePresent_frame r s).2.2.1
@[simp] theorem samplePresent_rate (r : PocketRecord) (s : State) : (samplePresent r s).rate = s.rate := (samplePresent_frame r s).2.2.2.1
@[simp] theorem samplePresent_tables (r : PocketRecord) (s : State) : (samplePresent r s).tables = s.tables := (samplePresent_frame r s).2.2.2.2.1
@[simp] theorem samplePresent_lrx (r : PocketRecord) (s : State) : (samplePresent r s).lrx = s.lrx := (samplePresent_frame r s).2.2.2.2.2.1
@[simp] theorem samplePresent_ltx (r : PocketRecord) (s : State) : (samplePresent r s).ltx = s.ltx := (samplePresent_frame r s).2.2.2.2.2.2.1
@[simp] theorem samplePresent_unstated (r : PocketRecord) (s : State) : (samplePresent r s).unstated = s.unstated := (samplePresent_frame r s).2.2.2.2.2.2.2.1
@[simp] theorem samplePresent_pending (r : PocketRecord) (s : State) : (samplePresent r s).pending = s.pending := (samplePresent_frame r s).2.2.2.2.2.2.2.2

theorem takeSample_frame (c : Bool) (s : State) :
    let t := takeSample c s
    t.now = s.now ∧ t.held = s.held ∧ t.jam = s.jam ∧ t.rate = s.rate ∧ t.tables = s.tables ∧ t.lrx = s.lrx ∧ t.unstated = s.unstated ∧ t.pending = s.pending := by
  unfold takeSample; dsimp only; (repeat' split) <;> simp
@[simp] theorem takeSample_now (c : Bool) (s : State) : (takeSample c s).now = s.now := (takeSample_frame c s).1
@[simp] theorem takeSample_held (c : Bool) (s : State) : (takeSample c s).held = s.held := (takeSample_frame c s).2.1
@[simp] theorem takeSample_jam (c : Bool) (s : State) : (takeSample c s).jam = s.jam := (takeSample_frame c s).2.2.1
@[simp] theorem takeSample_rate (c : Bool) (s : State) : (takeSample c s).rate = s.rate := (takeSample_frame c s).2.2.2.1
@[simp] theorem takeSample_tables (c : Bool) (s : State) : (takeSample c s).tables = s.tables := (takeSample_frame c s).2.2.2.2.1
@[simp] theorem takeSample_lrx (c : Bool) (s : State) : (takeSample c s).lrx = s.lrx := (takeSample_frame c s).2.2.2.2.2.1
@[simp] theorem takeSample_unstated (c : Bool) (s : State) : (takeSample c s).unstated = s.unstated := (takeSample_frame c s).2.2.2.2.2.2.1
@[simp] theorem takeSample_pending (c : Bool) (s : State) : (takeSample c s).pending = s.pending := (takeSample_frame c s).2.2.2.2.2.2.2

theorem retire_frame (r : PocketRecord) (s : State) :
    let t := retire r s
    t.now = s.now ∧ t.held = s.held ∧ t.jam = s.jam ∧ t.rate = s.rate ∧ t.outlets = s.outlets ∧ t.tables = s.tables ∧ t.lrx = s.lrx ∧ t.unstated = s.unstated ∧ t.pending = s.pending := by
  unfold retire; dsimp only; (repeat' split) <;> simp
@[simp] theorem retire_now (r : PocketRecord) (s : State) : (retire r s).now = s.now := (retire_frame r s).1
@[simp] theorem retire_held (r : PocketRecord) (s : State) : (retire r s).held = s.held := (retire_frame r s).2.1
@[simp] theorem retire_jam (r : PocketRecord) (s : State) : (retire r s).jam = s.jam := (retire_frame r s).2.2.1
@[simp] theorem retire_rate (r : PocketRecord) (s : State) : (retire r s).rate = s.rate := (retire_frame r s).2.2.2.1
@[simp] theorem retire_outlets (r : PocketRecord) (s : State) : (retire r s).outlets = s.outlets := (retire_frame r s).2.2.2.2.1
@[simp] theorem retire_tables (r : PocketRecord) (s : State) : (retire r s).tables = s.tables := (retire_frame r s).2.2.2.2.2.1
@[simp] theorem retire_lrx (r : PocketRecord) (s : State) : (retire r s).lrx = s.lrx := (retire_frame r s).2.2.2.2.2.2.1
@[simp] theorem retire_unstated (r : PocketRecord) (s : State) : (retire r s).unstated = s.unstated := (retire_frame r s).2.2.2.2.2.2.2.1
@[simp] theorem retire_pending (r : PocketRecord) (s : State) : (retire r s).pending = s.pending := (retire_frame r s).2.2.2.2.2.2.2.2

theorem moveUp_frame (s : State) :
    let t := moveUp s
    t.now = s.now ∧ t.held = s.held ∧ t.jam = s.jam ∧ t.rate = s.rate ∧ t.outlets = s.outlets ∧ t.tables = s.tables ∧ t.lrx = s.lrx ∧ t.unstated = s.unstated ∧ t.pending = s.pending := by
  unfold moveUp; dsimp only; (repeat' split) <;> simp
@[simp] theorem moveUp_now (s : State) : (moveUp s).now = s.now := (moveUp_frame s).1
@[simp] theorem moveUp_held (s : State) : (moveUp s).held = s.held := (moveUp_frame s).2.1
@[simp] theorem moveUp_jam (s : State) : (moveUp s).jam = s.jam := (moveUp_frame s).2.2.1
@[simp] theorem moveUp_rate (s : State) : (moveUp s).rate = s.rate := (moveUp_frame s).2.2.2.1
@[simp] theorem moveUp_outlets (s : State) : (moveUp s).outlets = s.outlets := (moveUp_frame s).2.2.2.2.1
@[simp] theorem moveUp_tables (s : State) : (moveUp s).tables = s.tables := (moveUp_frame s).2.2.2.2.2.1
@[simp] theorem moveUp_lrx (s : State) : (moveUp s).lrx = s.lrx := (moveUp_frame s).2.2.2.2.2.2.1
@[simp] theorem moveUp_unstated (s : State) : (moveUp s).unstated = s.unstated := (moveUp_frame s).2.2.2.2.2.2.2.1
@[simp] theorem moveUp_pending (s : State) : (moveUp s).pending = s.pending := (moveUp_frame s).2.2.2.2.2.2.2.2

theorem contactDeadline_frame (s : State) :
    let t := contactDeadline s
    t.now = s.now ∧ t.held = s.held ∧ t.jam = s.jam ∧ t.rate = s.rate ∧ t.outlets = s.outlets ∧ t.sup = s.sup ∧ t.tables = s.tables ∧ t.notices = s.notices ∧ t.lrx = s.lrx ∧ t.ltx = s.ltx ∧ t.unstated = s.unstated ∧ t.pending = s.pending := by
  unfold contactDeadline; dsimp only; (repeat' split) <;> simp
@[simp] theorem contactDeadline_now (s : State) : (contactDeadline s).now = s.now := (contactDeadline_frame s).1
@[simp] theorem contactDeadline_held (s : State) : (contactDeadline s).held = s.held := (contactDeadline_frame s).2.1
@[simp] theorem contactDeadline_jam (s : State) : (contactDeadline s).jam = s.jam := (contactDeadline_frame s).2.2.1
@[simp] theorem contactDeadline_rate (s : State) : (contactDeadline s).rate = s.rate := (contactDeadline_frame s).2.2.2.1
@[simp] theorem contactDeadline_outlets (s : State) : (contactDeadline s).outlets = s.outlets := (contactDeadline_frame s).2.2.2.2.1
@[simp] theorem contactDeadline_sup (s : State) : (contactDeadline s).sup = s.sup := (contactDeadline_frame s).2.2.2.2.2.1
@[simp] theorem contactDeadline_tables (s : State) : (contactDeadline s).tables = s.tables := (contactDeadline_frame s).2.2.2.2.2.2.1
@[simp] theorem contactDeadline_notices (s : State) : (contactDeadline s).notices = s.notices := (contactDeadline_frame s).2.2.2.2.2.2.2.1
@[simp] theorem contactDeadline_lrx (s : State) : (contactDeadline s).lrx = s.lrx := (contactDeadline_frame s).2.2.2.2.2.2.2.2.1
@[simp] theorem contactDeadline_ltx (s : State) : (contactDeadline s).ltx = s.ltx := (contactDeadline_frame s).2.2.2.2.2.2.2.2.2.1
@[simp] theorem contactDeadline_unstated (s : State) : (contactDeadline s).unstated = s.unstated := (contactDeadline_frame s).2.2.2.2.2.2.2.2.2.2.1
@[simp] theorem contactDeadline_pending (s : State) : (contactDeadline s).pending = s.pending := (contactDeadline_frame s).2.2.2.2.2.2.2.2.2.2.2

theorem verdictDeadline_frame (st : Station) (s : State) :
    let t := verdictDeadline st s
    t.now = s.now ∧ t.held = s.held ∧ t.jam = s.jam ∧ t.rate = s.rate ∧ t.sup = s.sup ∧ t.tables = s.tables ∧ t.notices = s.notices ∧ t.lrx = s.lrx ∧ t.ltx = s.ltx ∧ t.unstated = s.unstated ∧ t.pending = s.pending := by
  unfold verdictDeadline; dsimp only; (repeat' split) <;> simp
@[simp] theorem verdictDeadline_now (st : Station) (s : State) : (verdictDeadline st s).now = s.now := (verdictDeadline_frame st s).1
@[simp] theorem verdictDeadline_held (st : Station) (s : State) : (verdictDeadline st s).held = s.held := (verdictDeadline_frame st s).2.1
@[simp] theorem verdictDeadline_jam (st : Station) (s : State) : (verdictDeadline st s).jam = s.jam := (verdictDeadline_frame st s).2.2.1
@[simp] theorem verdictDeadline_rate (st : Station) (s : State) : (verdictDeadline st s).rate = s.rate := (verdictDeadline_frame st s).2.2.2.1
@[simp] theorem verdictDeadline_sup (st : Station) (s : State) : (verdictDeadline st s).sup = s.sup := (verdictDeadline_frame st s).2.2.2.2.1
@[simp] theorem verdictDeadline_tables (st : Station) (s : State) : (verdictDeadline st s).tables = s.tables := (verdictDeadline_frame st s).2.2.2.2.2.1
@[simp] theorem verdictDeadline_notices (st : Station) (s : State) : (verdictDeadline st s).notices = s.notices := (verdictDeadline_frame st s).2.2.2.2.2.2.1
@[simp] theorem verdictDeadline_lrx (st : Station) (s : State) : (verdictDeadline st s).lrx = s.lrx := (verdictDeadline_frame st s).2.2.2.2.2.2.2.1
@[simp] theorem verdictDeadline_ltx (st : Station) (s : State) : (verdictDeadline st s).ltx = s.ltx := (verdictDeadline_frame st s).2.2.2.2.2.2.2.2.1
@[simp] theorem verdictDeadline_unstated (st : Station) (s : State) : (verdictDeadline st s).unstated = s.unstated := (verdictDeadline_frame st s).2.2.2.2.2.2.2.2.2.1
@[simp] theorem verdictDeadline_pending (st : Station) (s : State) : (verdictDeadline st s).pending = s.pending := (verdictDeadline_frame st s).2.2.2.2.2.2.2.2.2.2

theorem deadlines_frame (s : State) :
    let t := deadlines s
    t.now = s.now ∧ t.held = s.held ∧ t.jam = s.jam ∧ t.rate = s.rate ∧ t.sup = s.sup ∧ t.tables = s.tables ∧ t.notices = s.notices ∧ t.lrx = s.lrx ∧ t.ltx = s.ltx ∧ t.unstated = s.unstated ∧ t.pending = s.pending := by
  unfold deadlines; dsimp only; simp
@[simp] theorem deadlines_now (s : State) : (deadlines s).now = s.now := (deadlines_frame s).1
@[simp] theorem deadlines_held (s : State) : (deadlines s).held = s.held := (deadlines_frame s).2.1
@[simp] theorem deadlines_jam (s : State) : (deadlines s).jam = s.jam := (deadlines_frame s).2.2.1
@[simp] theorem deadlines_rate (s : State) : (deadlines s).rate = s.rate := (deadlines_frame s).2.2.2.1
@[simp] theorem deadlines_sup (s : State) : (deadlines s).sup = s.sup := (deadlines_frame s).2.2.2.2.1
@[simp] theorem deadlines_tables (s : State) : (deadlines s).tables = s.tables := (deadlines_frame s).2.2.2.2.2.1
@[simp] theorem deadlines_notices (s : State) : (deadlines s).notices = s.notices := (deadlines_frame s).2.2.2.2.2.2.1
@[simp] theorem deadlines_lrx (s : State) : (deadlines s).lrx = s.lrx := (deadlines_frame s).2.2.2.2.2.2.2.1
@[simp] theorem deadlines_ltx (s : State) : (deadlines s).ltx = s.ltx := (deadlines_frame s).2.2.2.2.2.2.2.2.1
@[simp] theorem deadlines_unstated (s : State) : (deadlines s).unstated = s.unstated := (deadlines_frame s).2.2.2.2.2.2.2.2.2.1
@[simp] theorem deadlines_pending (s : State) : (deadlines s).pending = s.pending := (deadlines_frame s).2.2.2.2.2.2.2.2.2.2

theorem discardBottom_frame (r : PocketRecord) (s : State) :
    let t := discardBottom r s
    t.now = s.now ∧ t.held = s.held ∧ t.jam = s.jam ∧ t.rate = s.rate ∧ t.tracker = s.tracker ∧ t.tables = s.tables ∧ t.lrx = s.lrx ∧ t.unstated = s.unstated ∧ t.pending = s.pending := by
  unfold discardBottom; dsimp only; (repeat' split) <;> simp
@[simp] theorem discardBottom_now (r : PocketRecord) (s : State) : (discardBottom r s).now = s.now := (discardBottom_frame r s).1
@[simp] theorem discardBottom_held (r : PocketRecord) (s : State) : (discardBottom r s).held = s.held := (discardBottom_frame r s).2.1
@[simp] theorem discardBottom_jam (r : PocketRecord) (s : State) : (discardBottom r s).jam = s.jam := (discardBottom_frame r s).2.2.1
@[simp] theorem discardBottom_rate (r : PocketRecord) (s : State) : (discardBottom r s).rate = s.rate := (discardBottom_frame r s).2.2.2.1
@[simp] theorem discardBottom_tracker (r : PocketRecord) (s : State) : (discardBottom r s).tracker = s.tracker := (discardBottom_frame r s).2.2.2.2.1
@[simp] theorem discardBottom_tables (r : PocketRecord) (s : State) : (discardBottom r s).tables = s.tables := (discardBottom_frame r s).2.2.2.2.2.1
@[simp] theorem discardBottom_lrx (r : PocketRecord) (s : State) : (discardBottom r s).lrx = s.lrx := (discardBottom_frame r s).2.2.2.2.2.2.1
@[simp] theorem discardBottom_unstated (r : PocketRecord) (s : State) : (discardBottom r s).unstated = s.unstated := (discardBottom_frame r s).2.2.2.2.2.2.2.1
@[simp] theorem discardBottom_pending (r : PocketRecord) (s : State) : (discardBottom r s).pending = s.pending := (discardBottom_frame r s).2.2.2.2.2.2.2.2

theorem popToZ_frame (s : State) :
    let t := popToZ s
    t.now = s.now ∧ t.held = s.held ∧ t.jam = s.jam ∧ t.rate = s.rate ∧ t.outlets = s.outlets ∧ t.sup = s.sup ∧ t.tables = s.tables ∧ t.notices = s.notices ∧ t.lrx = s.lrx ∧ t.ltx = s.ltx ∧ t.unstated = s.unstated ∧ t.pending = s.pending := by
  unfold popToZ; dsimp only; (repeat' split) <;> simp
@[simp] theorem popToZ_now (s : State) : (popToZ s).now = s.now := (popToZ_frame s).1
@[simp] theorem popToZ_held (s : State) : (popToZ s).held = s.held := (popToZ_frame s).2.1
@[simp] theorem popToZ_jam (s : State) : (popToZ s).jam = s.jam := (popToZ_frame s).2.2.1
@[simp] theorem popToZ_rate (s : State) : (popToZ s).rate = s.rate := (popToZ_frame s).2.2.2.1
@[simp] theorem popToZ_outlets (s : State) : (popToZ s).outlets = s.outlets := (popToZ_frame s).2.2.2.2.1
@[simp] theorem popToZ_sup (s : State) : (popToZ s).sup = s.sup := (popToZ_frame s).2.2.2.2.2.1
@[simp] theorem popToZ_tables (s : State) : (popToZ s).tables = s.tables := (popToZ_frame s).2.2.2.2.2.2.1
@[simp] theorem popToZ_notices (s : State) : (popToZ s).notices = s.notices := (popToZ_frame s).2.2.2.2.2.2.2.1
@[simp] theorem popToZ_lrx (s : State) : (popToZ s).lrx = s.lrx := (popToZ_frame s).2.2.2.2.2.2.2.2.1
@[simp] theorem popToZ_ltx (s : State) : (popToZ s).ltx = s.ltx := (popToZ_frame s).2.2.2.2.2.2.2.2.2.1
@[simp] theorem popToZ_unstated (s : State) : (popToZ s).unstated = s.unstated := (popToZ_frame s).2.2.2.2.2.2.2.2.2.2.1
@[simp] theorem popToZ_pending (s : State) : (popToZ s).pending = s.pending := (popToZ_frame s).2.2.2.2.2.2.2.2.2.2.2

theorem raiseGap_frame (u : Bool) (s : State) :
    let t := raiseGap u s
    t.now = s.now ∧ t.held = s.held ∧ t.jam = s.jam ∧ t.rate = s.rate ∧ t.tracker = s.tracker ∧ t.outlets = s.outlets ∧ t.sup = s.sup ∧ t.tables = s.tables ∧ t.lrx = s.lrx ∧ t.ltx = s.ltx ∧ t.unstated = s.unstated ∧ t.pending = s.pending := by
  unfold raiseGap; dsimp only; (repeat' split) <;> simp
@[simp] theorem raiseGap_now (u : Bool) (s : State) : (raiseGap u s).now = s.now := (raiseGap_frame u s).1
@[simp] theorem raiseGap_held (u : Bool) (s : State) : (raiseGap u s).held = s.held := (raiseGap_frame u s).2.1
@[simp] theorem raiseGap_jam (u : Bool) (s : State) : (raiseGap u s).jam = s.jam := (raiseGap_frame u s).2.2.1
@[simp] theorem raiseGap_rate (u : Bool) (s : State) : (raiseGap u s).rate = s.rate := (raiseGap_frame u s).2.2.2.1
@[simp] theorem raiseGap_tracker (u : Bool) (s : State) : (raiseGap u s).tracker = s.tracker := (raiseGap_frame u s).2.2.2.2.1
@[simp] theorem raiseGap_outlets (u : Bool) (s : State) : (raiseGap u s).outlets = s.outlets := (raiseGap_frame u s).2.2.2.2.2.1
@[simp] theorem raiseGap_sup (u : Bool) (s : State) : (raiseGap u s).sup = s.sup := (raiseGap_frame u s).2.2.2.2.2.2.1
@[simp] theorem raiseGap_tables (u : Bool) (s : State) : (raiseGap u s).tables = s.tables := (raiseGap_frame u s).2.2.2.2.2.2.2.1
@[simp] theorem raiseGap_lrx (u : Bool) (s : State) : (raiseGap u s).lrx = s.lrx := (raiseGap_frame u s).2.2.2.2.2.2.2.2.1
@[simp] theorem raiseGap_ltx (u : Bool) (s : State) : (raiseGap u s).ltx = s.ltx := (raiseGap_frame u s).2.2.2.2.2.2.2.2.2.1
@[simp] theorem raiseGap_unstated (u : Bool) (s : State) : (raiseGap u s).unstated = s.unstated := (raiseGap_frame u s).2.2.2.2.2.2.2.2.2.2.1
@[simp] theorem raiseGap_pending (u : Bool) (s : State) : (raiseGap u s).pending = s.pending := (raiseGap_frame u s).2.2.2.2.2.2.2.2.2.2.2

theorem contactOpen_frame (k : Nat) (st : Status) (s : State) :
    let t := contactOpen k st s
    t.now = s.now ∧ t.held = s.held ∧ t.jam = s.jam ∧ t.rate = s.rate ∧ t.tables = s.tables ∧ t.notices = s.notices ∧ t.lrx = s.lrx ∧ t.ltx = s.ltx ∧ t.unstated = s.unstated ∧ t.pending = s.pending := by
  unfold contactOpen; dsimp only; (repeat' split) <;> simp
@[simp] theorem contactOpen_now (k : Nat) (st : Status) (s : State) : (contactOpen k st s).now = s.now := (contactOpen_frame k st s).1
@[simp] theorem contactOpen_held (k : Nat) (st : Status) (s : State) : (contactOpen k st s).held = s.held := (contactOpen_frame k st s).2.1
@[simp] theorem contactOpen_jam (k : Nat) (st : Status) (s : State) : (contactOpen k st s).jam = s.jam := (contactOpen_frame k st s).2.2.1
@[simp] theorem contactOpen_rate (k : Nat) (st : Status) (s : State) : (contactOpen k st s).rate = s.rate := (contactOpen_frame k st s).2.2.2.1
@[simp] theorem contactOpen_tables (k : Nat) (st : Status) (s : State) : (contactOpen k st s).tables = s.tables := (contactOpen_frame k st s).2.2.2.2.1
@[simp] theorem contactOpen_notices (k : Nat) (st : Status) (s : State) : (contactOpen k st s).notices = s.notices := (contactOpen_frame k st s).2.2.2.2.2.1
@[simp] theorem contactOpen_lrx (k : Nat) (st : Status) (s : State) : (contactOpen k st s).lrx = s.lrx := (contactOpen_frame k st s).2.2.2.2.2.2.1
@[simp] theorem contactOpen_ltx (k : Nat) (st : Status) (s : State) : (contactOpen k st s).ltx = s.ltx := (contactOpen_frame k st s).2.2.2.2.2.2.2.1
@[simp] theorem contactOpen_unstated (k : Nat) (st : Status) (s : State) : (contactOpen k st s).unstated = s.unstated := (contactOpen_frame k st s).2.2.2.2.2.2.2.2.1
@[simp] theorem contactOpen_pending (k : Nat) (st : Status) (s : State) : (contactOpen k st s).pending = s.pending := (contactOpen_frame k st s).2.2.2.2.2.2.2.2.2

theorem contactVoid_frame (k : Nat) (st : Status) (s : State) :
    let t := contactVoid k st s
    t.now = s.now ∧ t.held = s.held ∧ t.jam = s.jam ∧ t.rate = s.rate ∧ t.tables = s.tables ∧ t.notices = s.notices ∧ t.lrx = s.lrx ∧ t.ltx = s.ltx ∧ t.unstated = s.unstated ∧ t.pending = s.pending := by
  unfold contactVoid; dsimp only; (repeat' split) <;> simp
@[simp] theorem contactVoid_now (k : Nat) (st : Status) (s : State) : (contactVoid k st s).now = s.now := (contactVoid_frame k st s).1
@[simp] theorem contactVoid_held (k : Nat) (st : Status) (s : State) : (contactVoid k st s).held = s.held := (contactVoid_frame k st s).2.1
@[simp] theorem contactVoid_jam (k : Nat) (st : Status) (s : State) : (contactVoid k st s).jam = s.jam := (contactVoid_frame k st s).2.2.1
@[simp] theorem contactVoid_rate (k : Nat) (st : Status) (s : State) : (contactVoid k st s).rate = s.rate := (contactVoid_frame k st s).2.2.2.1
@[simp] theorem contactVoid_tables (k : Nat) (st : Status) (s : State) : (contactVoid k st s).tables = s.tables := (contactVoid_frame k st s).2.2.2.2.1
@[simp] theorem contactVoid_notices (k : Nat) (st : Status) (s : State) : (contactVoid k st s).notices = s.notices := (contactVoid_frame k st s).2.2.2.2.2.1
@[simp] theorem contactVoid_lrx (k : Nat) (st : Status) (s : State) : (contactVoid k st s).lrx = s.lrx := (contactVoid_frame k st s).2.2.2.2.2.2.1
@[simp] theorem contactVoid_ltx (k : Nat) (st : Status) (s : State) : (contactVoid k st s).ltx = s.ltx := (contactVoid_frame k st s).2.2.2.2.2.2.2.1
@[simp] theorem contactVoid_unstated (k : Nat) (st : Status) (s : State) : (contactVoid k st s).unstated = s.unstated := (contactVoid_frame k st s).2.2.2.2.2.2.2.2.1
@[simp] theorem contactVoid_pending (k : Nat) (st : Status) (s : State) : (contactVoid k st s).pending = s.pending := (contactVoid_frame k st s).2.2.2.2.2.2.2.2.2

theorem classify_frame (k : Nat) (d : Int) (s : State) :
    let t := classify k d s
    t.now = s.now ∧ t.held = s.held ∧ t.jam = s.jam ∧ t.rate = s.rate ∧ t.sup = s.sup ∧ t.tables = s.tables ∧ t.notices = s.notices ∧ t.lrx = s.lrx ∧ t.ltx = s.ltx ∧ t.unstated = s.unstated ∧ t.pending = s.pending := by
  unfold classify; dsimp only; (repeat' split) <;> simp
@[simp] theorem classify_now (k : Nat) (d : Int) (s : State) : (classify k d s).now = s.now := (classify_frame k d s).1
@[simp] theorem classify_held (k : Nat) (d : Int) (s : State) : (classify k d s).held = s.held := (classify_frame k d s).2.1
@[simp] theorem classify_jam (k : Nat) (d : Int) (s : State) : (classify k d s).jam = s.jam := (classify_frame k d s).2.2.1
@[simp] theorem classify_rate (k : Nat) (d : Int) (s : State) : (classify k d s).rate = s.rate := (classify_frame k d s).2.2.2.1
@[simp] theorem classify_sup (k : Nat) (d : Int) (s : State) : (classify k d s).sup = s.sup := (classify_frame k d s).2.2.2.2.1
@[simp] theorem classify_tables (k : Nat) (d : Int) (s : State) : (classify k d s).tables = s.tables := (classify_frame k d s).2.2.2.2.2.1
@[simp] theorem classify_notices (k : Nat) (d : Int) (s : State) : (classify k d s).notices = s.notices := (classify_frame k d s).2.2.2.2.2.2.1
@[simp] theorem classify_lrx (k : Nat) (d : Int) (s : State) : (classify k d s).lrx = s.lrx := (classify_frame k d s).2.2.2.2.2.2.2.1
@[simp] theorem classify_ltx (k : Nat) (d : Int) (s : State) : (classify k d s).ltx = s.ltx := (classify_frame k d s).2.2.2.2.2.2.2.2.1
@[simp] theorem classify_unstated (k : Nat) (d : Int) (s : State) : (classify k d s).unstated = s.unstated := (classify_frame k d s).2.2.2.2.2.2.2.2.2.1
@[simp] theorem classify_pending (k : Nat) (d : Int) (s : State) : (classify k d s).pending = s.pending := (classify_frame k d s).2.2.2.2.2.2.2.2.2.2

theorem valueOk_frame (k : Nat) (v : Nat × Int) (s : State) :
    let t := valueOk k v s
    t.now = s.now ∧ t.held = s.held ∧ t.jam = s.jam ∧ t.rate = s.rate ∧ t.sup = s.sup ∧ t.tables = s.tables ∧ t.notices = s.notices ∧ t.lrx = s.lrx ∧ t.ltx = s.ltx ∧ t.unstated = s.unstated ∧ t.pending = s.pending := by
  unfold valueOk; dsimp only; (repeat' split) <;> simp
@[simp] theorem valueOk_now (k : Nat) (v : Nat × Int) (s : State) : (valueOk k v s).now = s.now := (valueOk_frame k v s).1
@[simp] theorem valueOk_held (k : Nat) (v : Nat × Int) (s : State) : (valueOk k v s).held = s.held := (valueOk_frame k v s).2.1
@[simp] theorem valueOk_jam (k : Nat) (v : Nat × Int) (s : State) : (valueOk k v s).jam = s.jam := (valueOk_frame k v s).2.2.1
@[simp] theorem valueOk_rate (k : Nat) (v : Nat × Int) (s : State) : (valueOk k v s).rate = s.rate := (valueOk_frame k v s).2.2.2.1
@[simp] theorem valueOk_sup (k : Nat) (v : Nat × Int) (s : State) : (valueOk k v s).sup = s.sup := (valueOk_frame k v s).2.2.2.2.1
@[simp] theorem valueOk_tables (k : Nat) (v : Nat × Int) (s : State) : (valueOk k v s).tables = s.tables := (valueOk_frame k v s).2.2.2.2.2.1
@[simp] theorem valueOk_notices (k : Nat) (v : Nat × Int) (s : State) : (valueOk k v s).notices = s.notices := (valueOk_frame k v s).2.2.2.2.2.2.1
@[simp] theorem valueOk_lrx (k : Nat) (v : Nat × Int) (s : State) : (valueOk k v s).lrx = s.lrx := (valueOk_frame k v s).2.2.2.2.2.2.2.1
@[simp] theorem valueOk_ltx (k : Nat) (v : Nat × Int) (s : State) : (valueOk k v s).ltx = s.ltx := (valueOk_frame k v s).2.2.2.2.2.2.2.2.1
@[simp] theorem valueOk_unstated (k : Nat) (v : Nat × Int) (s : State) : (valueOk k v s).unstated = s.unstated := (valueOk_frame k v s).2.2.2.2.2.2.2.2.2.1
@[simp] theorem valueOk_pending (k : Nat) (v : Nat × Int) (s : State) : (valueOk k v s).pending = s.pending := (valueOk_frame k v s).2.2.2.2.2.2.2.2.2.2

theorem valueResult_frame (k : Nat) (m : Meas) (s : State) :
    let t := valueResult k m s
    t.now = s.now ∧ t.held = s.held ∧ t.jam = s.jam ∧ t.rate = s.rate ∧ t.sup = s.sup ∧ t.tables = s.tables ∧ t.notices = s.notices ∧ t.lrx = s.lrx ∧ t.ltx = s.ltx ∧ t.unstated = s.unstated ∧ t.pending = s.pending := by
  unfold valueResult; dsimp only; (repeat' split) <;> simp
@[simp] theorem valueResult_now (k : Nat) (m : Meas) (s : State) : (valueResult k m s).now = s.now := (valueResult_frame k m s).1
@[simp] theorem valueResult_held (k : Nat) (m : Meas) (s : State) : (valueResult k m s).held = s.held := (valueResult_frame k m s).2.1
@[simp] theorem valueResult_jam (k : Nat) (m : Meas) (s : State) : (valueResult k m s).jam = s.jam := (valueResult_frame k m s).2.2.1
@[simp] theorem valueResult_rate (k : Nat) (m : Meas) (s : State) : (valueResult k m s).rate = s.rate := (valueResult_frame k m s).2.2.2.1
@[simp] theorem valueResult_sup (k : Nat) (m : Meas) (s : State) : (valueResult k m s).sup = s.sup := (valueResult_frame k m s).2.2.2.2.1
@[simp] theorem valueResult_tables (k : Nat) (m : Meas) (s : State) : (valueResult k m s).tables = s.tables := (valueResult_frame k m s).2.2.2.2.2.1
@[simp] theorem valueResult_notices (k : Nat) (m : Meas) (s : State) : (valueResult k m s).notices = s.notices := (valueResult_frame k m s).2.2.2.2.2.2.1
@[simp] theorem valueResult_lrx (k : Nat) (m : Meas) (s : State) : (valueResult k m s).lrx = s.lrx := (valueResult_frame k m s).2.2.2.2.2.2.2.1
@[simp] theorem valueResult_ltx (k : Nat) (m : Meas) (s : State) : (valueResult k m s).ltx = s.ltx := (valueResult_frame k m s).2.2.2.2.2.2.2.2.1
@[simp] theorem valueResult_unstated (k : Nat) (m : Meas) (s : State) : (valueResult k m s).unstated = s.unstated := (valueResult_frame k m s).2.2.2.2.2.2.2.2.2.1
@[simp] theorem valueResult_pending (k : Nat) (m : Meas) (s : State) : (valueResult k m s).pending = s.pending := (valueResult_frame k m s).2.2.2.2.2.2.2.2.2.2

theorem judgeDrift_frame (k : Nat) (r : PocketRecord) (d : Nat) (s : State) :
    let t := judgeDrift k r d s
    t.now = s.now ∧ t.held = s.held ∧ t.jam = s.jam ∧ t.rate = s.rate ∧ t.sup = s.sup ∧ t.tables = s.tables ∧ t.notices = s.notices ∧ t.lrx = s.lrx ∧ t.ltx = s.ltx ∧ t.unstated = s.unstated ∧ t.pending = s.pending := by
  unfold judgeDrift; dsimp only; (repeat' split) <;> simp
@[simp] theorem judgeDrift_now (k : Nat) (r : PocketRecord) (d : Nat) (s : State) : (judgeDrift k r d s).now = s.now := (judgeDrift_frame k r d s).1
@[simp] theorem judgeDrift_held (k : Nat) (r : PocketRecord) (d : Nat) (s : State) : (judgeDrift k r d s).held = s.held := (judgeDrift_frame k r d s).2.1
@[simp] theorem judgeDrift_jam (k : Nat) (r : PocketRecord) (d : Nat) (s : State) : (judgeDrift k r d s).jam = s.jam := (judgeDrift_frame k r d s).2.2.1
@[simp] theorem judgeDrift_rate (k : Nat) (r : PocketRecord) (d : Nat) (s : State) : (judgeDrift k r d s).rate = s.rate := (judgeDrift_frame k r d s).2.2.2.1
@[simp] theorem judgeDrift_sup (k : Nat) (r : PocketRecord) (d : Nat) (s : State) : (judgeDrift k r d s).sup = s.sup := (judgeDrift_frame k r d s).2.2.2.2.1
@[simp] theorem judgeDrift_tables (k : Nat) (r : PocketRecord) (d : Nat) (s : State) : (judgeDrift k r d s).tables = s.tables := (judgeDrift_frame k r d s).2.2.2.2.2.1
@[simp] theorem judgeDrift_notices (k : Nat) (r : PocketRecord) (d : Nat) (s : State) : (judgeDrift k r d s).notices = s.notices := (judgeDrift_frame k r d s).2.2.2.2.2.2.1
@[simp] theorem judgeDrift_lrx (k : Nat) (r : PocketRecord) (d : Nat) (s : State) : (judgeDrift k r d s).lrx = s.lrx := (judgeDrift_frame k r d s).2.2.2.2.2.2.2.1
@[simp] theorem judgeDrift_ltx (k : Nat) (r : PocketRecord) (d : Nat) (s : State) : (judgeDrift k r d s).ltx = s.ltx := (judgeDrift_frame k r d s).2.2.2.2.2.2.2.2.1
@[simp] theorem judgeDrift_unstated (k : Nat) (r : PocketRecord) (d : Nat) (s : State) : (judgeDrift k r d s).unstated = s.unstated := (judgeDrift_frame k r d s).2.2.2.2.2.2.2.2.2.1
@[simp] theorem judgeDrift_pending (k : Nat) (r : PocketRecord) (d : Nat) (s : State) : (judgeDrift k r d s).pending = s.pending := (judgeDrift_frame k r d s).2.2.2.2.2.2.2.2.2.2

theorem recheckResult_frame (k : Nat) (r : PocketRecord) (m : Meas) (s : State) :
    let t := recheckResult k r m s
    t.now = s.now ∧ t.held = s.held ∧ t.jam = s.jam ∧ t.rate = s.rate ∧ t.sup = s.sup ∧ t.tables = s.tables ∧ t.notices = s.notices ∧ t.lrx = s.lrx ∧ t.ltx = s.ltx ∧ t.unstated = s.unstated ∧ t.pending = s.pending := by
  unfold recheckResult; dsimp only; (repeat' split) <;> simp
@[simp] theorem recheckResult_now (k : Nat) (r : PocketRecord) (m : Meas) (s : State) : (recheckResult k r m s).now = s.now := (recheckResult_frame k r m s).1
@[simp] theorem recheckResult_held (k : Nat) (r : PocketRecord) (m : Meas) (s : State) : (recheckResult k r m s).held = s.held := (recheckResult_frame k r m s).2.1
@[simp] theorem recheckResult_jam (k : Nat) (r : PocketRecord) (m : Meas) (s : State) : (recheckResult k r m s).jam = s.jam := (recheckResult_frame k r m s).2.2.1
@[simp] theorem recheckResult_rate (k : Nat) (r : PocketRecord) (m : Meas) (s : State) : (recheckResult k r m s).rate = s.rate := (recheckResult_frame k r m s).2.2.2.1
@[simp] theorem recheckResult_sup (k : Nat) (r : PocketRecord) (m : Meas) (s : State) : (recheckResult k r m s).sup = s.sup := (recheckResult_frame k r m s).2.2.2.2.1
@[simp] theorem recheckResult_tables (k : Nat) (r : PocketRecord) (m : Meas) (s : State) : (recheckResult k r m s).tables = s.tables := (recheckResult_frame k r m s).2.2.2.2.2.1
@[simp] theorem recheckResult_notices (k : Nat) (r : PocketRecord) (m : Meas) (s : State) : (recheckResult k r m s).notices = s.notices := (recheckResult_frame k r m s).2.2.2.2.2.2.1
@[simp] theorem recheckResult_lrx (k : Nat) (r : PocketRecord) (m : Meas) (s : State) : (recheckResult k r m s).lrx = s.lrx := (recheckResult_frame k r m s).2.2.2.2.2.2.2.1
@[simp] theorem recheckResult_ltx (k : Nat) (r : PocketRecord) (m : Meas) (s : State) : (recheckResult k r m s).ltx = s.ltx := (recheckResult_frame k r m s).2.2.2.2.2.2.2.2.1
@[simp] theorem recheckResult_unstated (k : Nat) (r : PocketRecord) (m : Meas) (s : State) : (recheckResult k r m s).unstated = s.unstated := (recheckResult_frame k r m s).2.2.2.2.2.2.2.2.2.1
@[simp] theorem recheckResult_pending (k : Nat) (r : PocketRecord) (m : Meas) (s : State) : (recheckResult k r m s).pending = s.pending := (recheckResult_frame k r m s).2.2.2.2.2.2.2.2.2.2

theorem applyResult_frame (k : Nat) (r : PocketRecord) (m : Meas) (s : State) :
    let t := applyResult k r m s
    t.now = s.now ∧ t.held = s.held ∧ t.jam = s.jam ∧ t.rate = s.rate ∧ t.tables = s.tables ∧ t.notices = s.notices ∧ t.lrx = s.lrx ∧ t.ltx = s.ltx ∧ t.unstated = s.unstated ∧ t.pending = s.pending := by
  unfold applyResult; dsimp only; (repeat' split) <;> simp
@[simp] theorem applyResult_now (k : Nat) (r : PocketRecord) (m : Meas) (s : State) : (applyResult k r m s).now = s.now := (applyResult_frame k r m s).1
@[simp] theorem applyResult_held (k : Nat) (r : PocketRecord) (m : Meas) (s : State) : (applyResult k r m s).held = s.held := (applyResult_frame k r m s).2.1
@[simp] theorem applyResult_jam (k : Nat) (r : PocketRecord) (m : Meas) (s : State) : (applyResult k r m s).jam = s.jam := (applyResult_frame k r m s).2.2.1
@[simp] theorem applyResult_rate (k : Nat) (r : PocketRecord) (m : Meas) (s : State) : (applyResult k r m s).rate = s.rate := (applyResult_frame k r m s).2.2.2.1
@[simp] theorem applyResult_tables (k : Nat) (r : PocketRecord) (m : Meas) (s : State) : (applyResult k r m s).tables = s.tables := (applyResult_frame k r m s).2.2.2.2.1
@[simp] theorem applyResult_notices (k : Nat) (r : PocketRecord) (m : Meas) (s : State) : (applyResult k r m s).notices = s.notices := (applyResult_frame k r m s).2.2.2.2.2.1
@[simp] theorem applyResult_lrx (k : Nat) (r : PocketRecord) (m : Meas) (s : State) : (applyResult k r m s).lrx = s.lrx := (applyResult_frame k r m s).2.2.2.2.2.2.1
@[simp] theorem applyResult_ltx (k : Nat) (r : PocketRecord) (m : Meas) (s : State) : (applyResult k r m s).ltx = s.ltx := (applyResult_frame k r m s).2.2.2.2.2.2.2.1
@[simp] theorem applyResult_unstated (k : Nat) (r : PocketRecord) (m : Meas) (s : State) : (applyResult k r m s).unstated = s.unstated := (applyResult_frame k r m s).2.2.2.2.2.2.2.2.1
@[simp] theorem applyResult_pending (k : Nat) (r : PocketRecord) (m : Meas) (s : State) : (applyResult k r m s).pending = s.pending := (applyResult_frame k r m s).2.2.2.2.2.2.2.2.2

theorem placeResult_frame (m : Meas) (e : StationEntry) (s : State) :
    let t := placeResult m e s
    t.now = s.now ∧ t.held = s.held ∧ t.jam = s.jam ∧ t.rate = s.rate ∧ t.tables = s.tables ∧ t.lrx = s.lrx ∧ t.ltx = s.ltx ∧ t.unstated = s.unstated ∧ t.pending = s.pending := by
  unfold placeResult; dsimp only; (repeat' split) <;> simp
@[simp] theorem placeResult_now (m : Meas) (e : StationEntry) (s : State) : (placeResult m e s).now = s.now := (placeResult_frame m e s).1
@[simp] theorem placeResult_held (m : Meas) (e : StationEntry) (s : State) : (placeResult m e s).held = s.held := (placeResult_frame m e s).2.1
@[simp] theorem placeResult_jam (m : Meas) (e : StationEntry) (s : State) : (placeResult m e s).jam = s.jam := (placeResult_frame m e s).2.2.1
@[simp] theorem placeResult_rate (m : Meas) (e : StationEntry) (s : State) : (placeResult m e s).rate = s.rate := (placeResult_frame m e s).2.2.2.1
@[simp] theorem placeResult_tables (m : Meas) (e : StationEntry) (s : State) : (placeResult m e s).tables = s.tables := (placeResult_frame m e s).2.2.2.2.1
@[simp] theorem placeResult_lrx (m : Meas) (e : StationEntry) (s : State) : (placeResult m e s).lrx = s.lrx := (placeResult_frame m e s).2.2.2.2.2.1
@[simp] theorem placeResult_ltx (m : Meas) (e : StationEntry) (s : State) : (placeResult m e s).ltx = s.ltx := (placeResult_frame m e s).2.2.2.2.2.2.1
@[simp] theorem placeResult_unstated (m : Meas) (e : StationEntry) (s : State) : (placeResult m e s).unstated = s.unstated := (placeResult_frame m e s).2.2.2.2.2.2.2.1
@[simp] theorem placeResult_pending (m : Meas) (e : StationEntry) (s : State) : (placeResult m e s).pending = s.pending := (placeResult_frame m e s).2.2.2.2.2.2.2.2

theorem takeMeas_frame (f : InFrame) (s : State) :
    let t := takeMeas f s
    t.now = s.now ∧ t.held = s.held ∧ t.jam = s.jam ∧ t.rate = s.rate ∧ t.tables = s.tables ∧ t.lrx = s.lrx ∧ t.ltx = s.ltx ∧ t.unstated = s.unstated ∧ t.pending = s.pending := by
  unfold takeMeas; dsimp only; (repeat' split) <;> simp
@[simp] theorem takeMeas_now (f : InFrame) (s : State) : (takeMeas f s).now = s.now := (takeMeas_frame f s).1
@[simp] theorem takeMeas_held (f : InFrame) (s : State) : (takeMeas f s).held = s.held := (takeMeas_frame f s).2.1
@[simp] theorem takeMeas_jam (f : InFrame) (s : State) : (takeMeas f s).jam = s.jam := (takeMeas_frame f s).2.2.1
@[simp] theorem takeMeas_rate (f : InFrame) (s : State) : (takeMeas f s).rate = s.rate := (takeMeas_frame f s).2.2.2.1
@[simp] theorem takeMeas_tables (f : InFrame) (s : State) : (takeMeas f s).tables = s.tables := (takeMeas_frame f s).2.2.2.2.1
@[simp] theorem takeMeas_lrx (f : InFrame) (s : State) : (takeMeas f s).lrx = s.lrx := (takeMeas_frame f s).2.2.2.2.2.1
@[simp] theorem takeMeas_ltx (f : InFrame) (s : State) : (takeMeas f s).ltx = s.ltx := (takeMeas_frame f s).2.2.2.2.2.2.1
@[simp] theorem takeMeas_unstated (f : InFrame) (s : State) : (takeMeas f s).unstated = s.unstated := (takeMeas_frame f s).2.2.2.2.2.2.2.1
@[simp] theorem takeMeas_pending (f : InFrame) (s : State) : (takeMeas f s).pending = s.pending := (takeMeas_frame f s).2.2.2.2.2.2.2.2

theorem offerHaltReply_frame (tag : Byte) (x : ResultCode) (s : State) :
    let t := offerHaltReply tag x s
    t.now = s.now ∧ t.held = s.held ∧ t.jam = s.jam ∧ t.rate = s.rate ∧ t.tracker = s.tracker ∧ t.outlets = s.outlets ∧ t.sup = s.sup ∧ t.tables = s.tables ∧ t.notices = s.notices ∧ t.unstated = s.unstated ∧ t.pending = s.pending := by
  unfold offerHaltReply; dsimp only; (repeat' split) <;> simp
@[simp] theorem offerHaltReply_now (tag : Byte) (x : ResultCode) (s : State) : (offerHaltReply tag x s).now = s.now := (offerHaltReply_frame tag x s).1
@[simp] theorem offerHaltReply_held (tag : Byte) (x : ResultCode) (s : State) : (offerHaltReply tag x s).held = s.held := (offerHaltReply_frame tag x s).2.1
@[simp] theorem offerHaltReply_jam (tag : Byte) (x : ResultCode) (s : State) : (offerHaltReply tag x s).jam = s.jam := (offerHaltReply_frame tag x s).2.2.1
@[simp] theorem offerHaltReply_rate (tag : Byte) (x : ResultCode) (s : State) : (offerHaltReply tag x s).rate = s.rate := (offerHaltReply_frame tag x s).2.2.2.1
@[simp] theorem offerHaltReply_tracker (tag : Byte) (x : ResultCode) (s : State) : (offerHaltReply tag x s).tracker = s.tracker := (offerHaltReply_frame tag x s).2.2.2.2.1
@[simp] theorem offerHaltReply_outlets (tag : Byte) (x : ResultCode) (s : State) : (offerHaltReply tag x s).outlets = s.outlets := (offerHaltReply_frame tag x s).2.2.2.2.2.1
@[simp] theorem offerHaltReply_sup (tag : Byte) (x : ResultCode) (s : State) : (offerHaltReply tag x s).sup = s.sup := (offerHaltReply_frame tag x s).2.2.2.2.2.2.1
@[simp] theorem offerHaltReply_tables (tag : Byte) (x : ResultCode) (s : State) : (offerHaltReply tag x s).tables = s.tables := (offerHaltReply_frame tag x s).2.2.2.2.2.2.2.1
@[simp] theorem offerHaltReply_notices (tag : Byte) (x : ResultCode) (s : State) : (offerHaltReply tag x s).notices = s.notices := (offerHaltReply_frame tag x s).2.2.2.2.2.2.2.2.1
@[simp] theorem offerHaltReply_unstated (tag : Byte) (x : ResultCode) (s : State) : (offerHaltReply tag x s).unstated = s.unstated := (offerHaltReply_frame tag x s).2.2.2.2.2.2.2.2.2.1
@[simp] theorem offerHaltReply_pending (tag : Byte) (x : ResultCode) (s : State) : (offerHaltReply tag x s).pending = s.pending := (offerHaltReply_frame tag x s).2.2.2.2.2.2.2.2.2.2

theorem takeHalt_frame (tag : Byte) (s : State) :
    let t := takeHalt tag s
    t.now = s.now ∧ t.held = s.held ∧ t.jam = s.jam ∧ t.rate = s.rate ∧ t.tracker = s.tracker ∧ t.tables = s.tables ∧ t.unstated = s.unstated ∧ t.pending = s.pending := by
  unfold takeHalt; dsimp only; (repeat' split) <;> simp
@[simp] theorem takeHalt_now (tag : Byte) (s : State) : (takeHalt tag s).now = s.now := (takeHalt_frame tag s).1
@[simp] theorem takeHalt_held (tag : Byte) (s : State) : (takeHalt tag s).held = s.held := (takeHalt_frame tag s).2.1
@[simp] theorem takeHalt_jam (tag : Byte) (s : State) : (takeHalt tag s).jam = s.jam := (takeHalt_frame tag s).2.2.1
@[simp] theorem takeHalt_rate (tag : Byte) (s : State) : (takeHalt tag s).rate = s.rate := (takeHalt_frame tag s).2.2.2.1
@[simp] theorem takeHalt_tracker (tag : Byte) (s : State) : (takeHalt tag s).tracker = s.tracker := (takeHalt_frame tag s).2.2.2.2.1
@[simp] theorem takeHalt_tables (tag : Byte) (s : State) : (takeHalt tag s).tables = s.tables := (takeHalt_frame tag s).2.2.2.2.2.1
@[simp] theorem takeHalt_unstated (tag : Byte) (s : State) : (takeHalt tag s).unstated = s.unstated := (takeHalt_frame tag s).2.2.2.2.2.2.1
@[simp] theorem takeHalt_pending (tag : Byte) (s : State) : (takeHalt tag s).pending = s.pending := (takeHalt_frame tag s).2.2.2.2.2.2.2

theorem appendInbound_frame (f : InFrame) (s : State) :
    let t := appendInbound f s
    t.now = s.now ∧ t.held = s.held ∧ t.jam = s.jam ∧ t.rate = s.rate ∧ t.tracker = s.tracker ∧ t.outlets = s.outlets ∧ t.sup = s.sup ∧ t.tables = s.tables ∧ t.unstated = s.unstated ∧ t.pending = s.pending := by
  unfold appendInbound; dsimp only; (repeat' split) <;> simp
@[simp] theorem appendInbound_now (f : InFrame) (s : State) : (appendInbound f s).now = s.now := (appendInbound_frame f s).1
@[simp] theorem appendInbound_held (f : InFrame) (s : State) : (appendInbound f s).held = s.held := (appendInbound_frame f s).2.1
@[simp] theorem appendInbound_jam (f : InFrame) (s : State) : (appendInbound f s).jam = s.jam := (appendInbound_frame f s).2.2.1
@[simp] theorem appendInbound_rate (f : InFrame) (s : State) : (appendInbound f s).rate = s.rate := (appendInbound_frame f s).2.2.2.1
@[simp] theorem appendInbound_tracker (f : InFrame) (s : State) : (appendInbound f s).tracker = s.tracker := (appendInbound_frame f s).2.2.2.2.1
@[simp] theorem appendInbound_outlets (f : InFrame) (s : State) : (appendInbound f s).outlets = s.outlets := (appendInbound_frame f s).2.2.2.2.2.1
@[simp] theorem appendInbound_sup (f : InFrame) (s : State) : (appendInbound f s).sup = s.sup := (appendInbound_frame f s).2.2.2.2.2.2.1
@[simp] theorem appendInbound_tables (f : InFrame) (s : State) : (appendInbound f s).tables = s.tables := (appendInbound_frame f s).2.2.2.2.2.2.2.1
@[simp] theorem appendInbound_unstated (f : InFrame) (s : State) : (appendInbound f s).unstated = s.unstated := (appendInbound_frame f s).2.2.2.2.2.2.2.2.1
@[simp] theorem appendInbound_pending (f : InFrame) (s : State) : (appendInbound f s).pending = s.pending := (appendInbound_frame f s).2.2.2.2.2.2.2.2.2

end Sys2Proof.Machine
end

