-- ==== Sys2Proof/Laws/Ops.lean ====
section
/-! SUPPORT. What the shared operations do to the fields that they write: one record of the ring, one outlet, one notice
condition, a fault, the line's queues. -/

namespace Sys2Proof.Machine

/-! ### The ring -/

@[simp] theorem setRing_ring (ring : List PocketRecord) (s : State) : (setRing ring s).tracker.ring = ring := rfl

theorem modRing_ring (k : Nat) (f : PocketRecord → PocketRecord) (s : State) :
    (modRing k f s).tracker.ring = s.tracker.ring.modify k f := rfl

@[simp] theorem modRing_length (k : Nat) (f : PocketRecord → PocketRecord) (s : State) :
    (modRing k f s).tracker.ring.length = s.tracker.ring.length := by simp [modRing_ring]

/-- `modRing` changes the record at its offset and no other. -/
theorem modRing_get (k j : Nat) (f : PocketRecord → PocketRecord) (s : State) :
    (modRing k f s).tracker.ring[j]? = if k = j then (s.tracker.ring[j]?).map f else s.tracker.ring[j]? := by
  rw [modRing_ring, List.getElem?_modify]
  split <;> simp

@[simp] theorem modRing_stack (k : Nat) (f : PocketRecord → PocketRecord) (s : State) :
    (modRing k f s).tracker.stack = s.tracker.stack := rfl

@[simp] theorem modRing_loadPocket (k : Nat) (f : PocketRecord → PocketRecord) (s : State) :
    (modRing k f s).tracker.loadPocket = s.tracker.loadPocket := rfl

@[simp] theorem modRing_nextSeq (k : Nat) (f : PocketRecord → PocketRecord) (s : State) :
    (modRing k f s).tracker.nextSeq = s.tracker.nextSeq := rfl

@[simp] theorem modRing_checkTimer (k : Nat) (f : PocketRecord → PocketRecord) (s : State) :
    (modRing k f s).tracker.checkTimer = s.tracker.checkTimer := rfl

/-! ### The outlets -/

/-- `modOutlet` changes one outlet record and no other. -/
theorem modOutlet_get (n : Fin 16) (f : Outlet → Outlet) (s : State) (m : Nat) (h : m < 16) :
    (modOutlet n f s).outlets[m] = if (n : Nat) = m then f s.outlets[m] else s.outlets[m] := by
  simp only [modOutlet, Vector.getElem_set]
  split
  · next e => subst e; rfl
  · rfl

@[simp] theorem modOutlet_self (n : Fin 16) (f : Outlet → Outlet) (s : State) :
    (modOutlet n f s).outlets[(n : Nat)] = f s.outlets[(n : Nat)] := by simp [modOutlet_get]

theorem modOutlet_ne {n m : Fin 16} (h : n ≠ m) (f : Outlet → Outlet) (s : State) :
    (modOutlet n f s).outlets[(m : Nat)] = s.outlets[(m : Nat)] := by
  have : (n : Nat) ≠ (m : Nat) := fun e => h (Fin.ext e)
  simp [modOutlet_get, this]

/-- `mapOutlets` changes each outlet record by its number. -/
@[simp] theorem mapOutlets_get (f : Fin 16 → Outlet → Outlet) (s : State) (m : Nat) (h : m < 16) :
    (mapOutlets f s).outlets[m] = f ⟨m, h⟩ s.outlets[m] := by simp [mapOutlets]

/-! ### Notices -/

/-- `raiseNotice` raises one condition and leaves the others. -/
theorem raiseNotice_get (c : Condition) (detail : Nat) (s : State) (i : Nat) (h : i < 11) :
    (raiseNotice c detail s).notices[i] =
      if (c.index : Nat) = i then (s.notices[i]).raised detail else s.notices[i] := by
  simp only [raiseNotice, Vector.getElem_set]
  split
  · next e => subst e; rfl
  · rfl

/-! ### Faults -/

/-- What raising a fault does to the Supervisor's engine state, by the state it finds (R135). -/
theorem raiseFault_engine (c : FaultCode) (p : Nat) (q : Option Nat) (s : State) :
    (raiseFault c p q s).sup.engine = if s.firesAllowed then .halted else s.sup.engine := by
  unfold raiseFault State.firesAllowed
  split <;> simp_all [enterHalted, raiseNotice, endSlots, mapOutlets]

/-- Raising a fault touches nothing of the Supervisor but the engine state, the return state and the fault record. -/
theorem raiseFault_sup (c : FaultCode) (p : Nat) (q : Option Nat) (s : State) :
    (raiseFault c p q s).sup =
      { s.sup with engine := (raiseFault c p q s).sup.engine, returnState := (raiseFault c p q s).sup.returnState,
                   faults := (raiseFault c p q s).sup.faults } := by
  unfold raiseFault
  split <;> rfl

/-- A fault leaves an open lot open and opens none. -/
@[simp] theorem raiseFault_lotOpen (c : FaultCode) (p : Nat) (q : Option Nat) (s : State) :
    (raiseFault c p q s).lotOpen = s.lotOpen := by
  unfold raiseFault
  split <;> simp_all [enterHalted, raiseNotice, endSlots, mapOutlets, State.lotOpen]

/-! ### The line -/

/-- HOLD after it is judged (R168). -/
theorem judgeHold_hold (s : State) :
    (judgeHold s).lrx.hold = holdLevel s.link s.lrx.inbound.length s.lrx.hold := rfl

@[simp] theorem setInbound_inbound (frames : List InFrame) (s : State) : (setInbound frames s).lrx.inbound = frames := rfl

@[simp] theorem enqueue_outbound (tag : Byte) (body : OutBody) (s : State) :
    (enqueue tag body s).ltx.outbound = s.ltx.outbound ++ [{ tag := tag, body := body, flags := none }] := rfl

/-- A SORT_REPORT never takes the outbound queue past 28 frames (R170). -/
theorem offerReport_length (r : SortReport) (s : State) :
    (offerReport r s).ltx.outbound.length ≤ max s.ltx.outbound.length Config.reportLimit := by
  unfold offerReport LineTransmitter.offer
  split
  · simp; omega
  · simp

/-- The start of a transmission keeps the occupancy (R171). -/
@[simp] theorem startTransmission_length (s : State) :
    (startTransmission s).ltx.outbound.length = s.ltx.outbound.length := by
  unfold startTransmission LineTransmitter.start
  dsimp only
  split <;> simp_all

end Sys2Proof.Machine
end

