-- ==== Sys2Proof/Laws/Line.lean ====
section
/-! SUPPORT. What a character, a search of held bytes and the gap timer do to the assembler (R163, R164), and what the
arbiter and a CORE_RESET do to TXD (R170, R171). -/

namespace Sys2Proof.Machine

/-! ### The assembler -/

@[simp] theorem setAssembler_assembler (a : Assembler) (s : State) : (setAssembler a s).lrx.assembler = a := rfl

@[simp] theorem setAssembler_setAssembler (a b : Assembler) (s : State) :
    setAssembler a (setAssembler b s) = setAssembler a s := rfl

@[simp] theorem setAssembler_inbound (a : Assembler) (s : State) : (setAssembler a s).lrx.inbound = s.lrx.inbound := rfl

@[simp] theorem rejectFrame_assembler (x : LinkTrouble) (s : State) : (rejectFrame x s).lrx.assembler = .hunt := by
  simp [rejectFrame]

@[simp] theorem markChar_assembler (s : State) : (markChar s).lrx.assembler = s.lrx.assembler := rfl

@[simp] theorem timeGap_assembler (s : State) : (timeGap s).lrx.assembler = s.lrx.assembler := rfl

/-- A state whose assembler is in HUNT is in HUNT. -/
theorem setAssembler_self {s : State} {a : Assembler} (h : s.lrx.assembler = a) : setAssembler a s = s := by
  subst h; rfl

/-! ### Searches (R164) -/

theorem takeChars_nil (fuel : Nat) (s : State) : takeChars fuel [] s = s := by cases fuel <;> rfl

/-- In HUNT every byte but a SYNC is passed ranOut. -/
theorem takeChars_passOver (bytes rest : List Byte) (fuel : Nat) (s : State) (hunt : s.lrx.assembler = .hunt)
    (none : Config.sync ∉ bytes) : takeChars (bytes.length + fuel) (bytes ++ rest) s = takeChars fuel rest s := by
  induction bytes with
  | nil => simp
  | cons b bytes ih =>
    simp only [List.mem_cons, not_or] at none
    have : takeChar b s = (s, .again []) := by simp [takeChar, hunt, Ne.symm none.1]
    rw [List.length_cons, Nat.add_right_comm, List.cons_append]
    simp only [takeChars, this, List.nil_append]
    exact ih none.2

/-- The LEN of held bytes, 0 before it has come. -/
theorem field_len (held : List Byte) : field held 4 1 = if held.length < 5 then 0 else (held.getD 4 0).toNat := by
  unfold field slice natOf
  by_cases short : held.length < 5
  · rw [if_pos short, List.drop_eq_nil_of_le (by omega)]; rfl
  · have split : held.drop 4 = held[4]'(by omega) :: held.drop 5 := List.drop_eq_getElem_cons (by omega)
    rw [if_neg short, split, List.getD_eq_getElem?_getD, List.getElem?_eq_getElem (by omega)]
    simp only [List.take_succ_cons, List.take_zero, List.foldl_cons, List.foldl_nil, Option.getD_some]
    omega

/-- Bytes that neither end a frame nor give a LEN above 56 are held. -/
theorem extendFrame_incomplete {held : List Byte} (h : Incomplete held) (s : State) :
    extendFrame held s = (setAssembler (.frame held) s, .again []) := by
  have most : Config.maxInboundLen = 56 := rfl
  unfold extendFrame
  rw [field_len]
  by_cases short : held.length < 5
  · rw [if_pos short, if_neg (by omega), if_neg (by omega)]
  · rw [if_neg short]
    rcases h with h | ⟨h, h'⟩
    · exact absurd h short
    · rw [if_neg (by omega), if_neg (by omega)]

/-- Held bytes that are incomplete were so before. -/
theorem Incomplete.of_append {held more : List Byte} (h : Incomplete (held ++ more)) : Incomplete held := by
  by_cases short : held.length < 5
  · exact .inl short
  · have same : (held ++ more).getD 4 0 = held.getD 4 0 := by
      rw [List.getD_eq_getElem?_getD, List.getD_eq_getElem?_getD, List.getElem?_append_left (by omega)]
    rcases h with h | ⟨h, h'⟩
    · rw [List.length_append] at h; omega
    · rw [same] at h h'
      rw [List.length_append] at h'
      exact .inr ⟨h, by omega⟩

/-- Bytes that leave the frame incomplete are all held. -/
theorem takeChars_incomplete (bytes : List Byte) : ∀ (held : List Byte) (fuel : Nat) (s : State),
    s.lrx.assembler = .frame held → Incomplete (held ++ bytes) → bytes.length ≤ fuel →
    takeChars fuel bytes s = setAssembler (.frame (held ++ bytes)) s := by
  induction bytes with
  | nil =>
    intro held fuel s at_ _ _
    rw [takeChars_nil, List.append_nil, setAssembler_self at_]
  | cons b bytes ih =>
    intro held fuel s at_ inc enough
    obtain ⟨fuel, rfl⟩ : ∃ m, fuel = m + 1 := ⟨fuel - 1, by simp at enough; omega⟩
    rw [List.append_cons] at inc ⊢
    have step : takeChar b s = (setAssembler (.frame (held ++ [b])) s, .again []) := by
      simp only [takeChar, at_]; exact extendFrame_incomplete inc.of_append s
    simp only [takeChars, step, List.nil_append]
    rw [ih (held ++ [b]) fuel _ rfl inc (by simp at enough; omega), setAssembler_setAssembler]

/-- R164: a search of bytes without a SYNC leaves HUNT as it is. -/
theorem search_passOver {bytes : List Byte} {s : State} (hunt : s.lrx.assembler = .hunt) (none : Config.sync ∉ bytes) :
    search bytes s = s := by
  have fuel : searchFuel (bytes.length + s.lrx.assembler.held.length)
      = bytes.length + (searchFuel (bytes.length + s.lrx.assembler.held.length) - bytes.length) := by
    have : bytes.length ≤ searchFuel (bytes.length + s.lrx.assembler.held.length) := by
      unfold searchFuel; nlinarith
    omega
  unfold search
  rw [fuel]
  have := takeChars_passOver bytes [] (searchFuel (bytes.length + s.lrx.assembler.held.length) - bytes.length) s hunt none
  rw [List.append_nil] at this
  rw [this, takeChars_nil]

/-- R164: a search holds the bytes from the first SYNC on, when they make no whole frame. -/
theorem search_holds {before held : List Byte} {s : State} (hunt : s.lrx.assembler = .hunt) (none : Config.sync ∉ before)
    (inc : Incomplete (Config.sync :: held)) :
    search (before ++ Config.sync :: held) s = setAssembler (.frame (Config.sync :: held)) s := by
  have enough : before.length + (held.length + 1)
      ≤ searchFuel ((before ++ Config.sync :: held).length + s.lrx.assembler.held.length) := by
    unfold searchFuel; simp only [List.length_append, List.length_cons]; nlinarith
  obtain ⟨fuel, more, le⟩ : ∃ fuel, searchFuel ((before ++ Config.sync :: held).length + s.lrx.assembler.held.length)
      = before.length + (fuel + 1) ∧ held.length ≤ fuel :=
    ⟨searchFuel ((before ++ Config.sync :: held).length + s.lrx.assembler.held.length) - before.length - 1, by omega, by omega⟩
  unfold search
  rw [more, takeChars_passOver before _ _ s hunt none]
  have begins : takeChar Config.sync s = (setAssembler (.frame [Config.sync]) s, .again []) := by simp [takeChar, hunt]
  simp only [takeChars, begins, List.nil_append]
  rw [takeChars_incomplete held [Config.sync] fuel _ rfl inc le, setAssembler_setAssembler]
  rfl

/-! ### How many bytes can be held -/

@[simp] theorem takeHalt_assembler (tag : Byte) (s : State) :
    (takeHalt tag s).lrx.assembler = s.lrx.assembler := by
  unfold takeHalt offerHaltReply enqueue
  (repeat' split) <;> simp

@[simp] theorem appendInbound_assembler (f : InFrame) (s : State) :
    (appendInbound f s).lrx.assembler = s.lrx.assembler := by
  unfold appendInbound
  split <;> simp [setInbound, judgeHold, raiseNotice]

@[simp] theorem coreReset_assembler (s : State) : (coreReset s).lrx.assembler = .hunt := by
  simp [coreReset, announceStart, LineReceiver.afterReset]

/-- What a character leaves held, with the bytes that are to be searched again, is at most one byte more than was held, and
never a frame without its SYNC. -/
def Search.bounded (limit : Nat) (x : State × Search) : Prop :=
  x.1.lrx.assembler ≠ .frame [] ∧
  match x.2 with
  | .again bytes => x.1.lrx.assembler.held.length + bytes.length ≤ limit
  | .drop => x.1.lrx.assembler = .hunt

theorem rejectHeld_bounded (x : LinkTrouble) (held : List Byte) (b : Byte) (s : State) :
    Search.bounded (held.length + 1) (rejectHeld x (held ++ [b]) s) := by
  simp [Search.bounded, rejectHeld, Assembler.held]

theorem acceptKept_bounded (f : InFrame) (held : List Byte) (b : Byte) (s : State) (hunt : s.lrx.assembler = .hunt) :
    Search.bounded (held.length + 1) (acceptKept f (held ++ [b]) s) := by
  unfold acceptKept
  (repeat' split) <;> first
    | exact rejectHeld_bounded _ _ _ _
    | simp [Search.bounded, Assembler.held, hunt]

theorem takeChar_bounded (b : Byte) (s : State) :
    Search.bounded (s.lrx.assembler.held.length + 1) (takeChar b s) := by
  unfold takeChar
  split
  · next hunt => split <;> simp [Search.bounded, Assembler.held, hunt]
  · next held frame =>
    rw [frame]
    unfold extendFrame completeFrame
    (repeat' split) <;> first
      | exact rejectHeld_bounded _ _ _ _
      | exact acceptKept_bounded _ _ _ _ rfl
      | simp [Search.bounded, Assembler.held]

/-- R164: no more bytes are held after a search than were held and searched. -/
theorem takeChars_held (fuel : Nat) : ∀ (bytes : List Byte) (s : State), s.lrx.assembler ≠ .frame [] →
    (takeChars fuel bytes s).lrx.assembler ≠ .frame [] ∧
      (takeChars fuel bytes s).lrx.assembler.held.length ≤ s.lrx.assembler.held.length + bytes.length := by
  induction fuel with
  | zero => intro bytes s h; exact ⟨h, by simp [takeChars]⟩
  | succ fuel ih =>
    intro bytes s h
    cases bytes with
    | nil => exact ⟨h, by simp [takeChars]⟩
    | cons b rest =>
      have step := takeChar_bounded b s
      unfold takeChars
      split
      · next t bytes eq =>
        rw [eq] at step
        have := ih (bytes ++ rest) t step.1
        refine ⟨this.1, this.2.trans ?_⟩
        have := step.2
        simp only [List.length_append, List.length_cons] at this ⊢
        omega
      · next t eq =>
        rw [eq] at step
        exact ⟨step.1, by rw [show t.lrx.assembler = .hunt from step.2]; simp [Assembler.held]⟩

/-! ### The gap timer (R163) -/

/-- A GAP reject drops at least one held byte. -/
theorem onGapTimer_held {s : State} {frame : List Byte} (h : s.lrx.assembler = .frame frame) (runs : s.lrx.gapTimer.isSome) :
    (onGapTimer s).lrx.assembler ≠ .frame [] ∧ (onGapTimer s).lrx.assembler.held.length ≤ frame.length - 1 := by
  obtain ⟨expires, at_⟩ := Option.isSome_iff_exists.1 runs
  have := takeChars_held (searchFuel (frame.tail.length + 0)) frame.tail (rejectFrame .gap (advanceTo expires s)) (by simp)
  simpa [onGapTimer, at_, finishReception, rejectAndSearch, h, search, Assembler.held] using this

theorem gapOver_eq {s : State} {time : Nat} {frame : List Byte} (h : s.lrx.assembler = .frame frame) :
    s.gapOver time = true ↔ ¬ s.inTime time := by
  unfold State.gapOver State.inTime
  rw [h]
  cases s.lrx.gapTimer with
  | none => simp
  | some expires =>
    dsimp only
    rw [decide_eq_true_iff]
    simp only [Option.some.injEq, forall_eq', Nat.not_lt]
    exact Iff.rfl

/-- A gap that is over leaves a FRAME and a timer that runs. -/
theorem gapOver_frame {s : State} {time : Nat} (h : s.gapOver time = true) :
    ∃ frame, s.lrx.assembler = .frame frame ∧ s.lrx.gapTimer.isSome := by
  unfold State.gapOver at h
  split at h
  · next frame expires a b => exact ⟨frame, a, by simp [b]⟩
  · cases h

/-- R163: a character that began in time finds the gap timer as it is. -/
theorem charEndsAt_inTime {s : State} {time : Nat} (h : s.inTime time) : charEndsAt time s = advanceTo time s := by
  have ranOut : s.gapOver time = false := by
    cases e : s.gapOver time with
    | false => rfl
    | true => obtain ⟨frame, a, -⟩ := gapOver_frame e; exact absurd h ((gapOver_eq a).1 e)
  unfold charEndsAt
  cases s.lrx.assembler.held.length <;> simp [expireGaps, ranOut]

theorem charEndsAt_hunt {s : State} (h : s.lrx.assembler = .hunt) (time : Nat) : charEndsAt time s = advanceTo time s := by
  simp [charEndsAt, h, Assembler.held, expireGaps]

/-- Once every gap that can run out has run out, further steps change nothing. -/
theorem expireGaps_enough (time n : Nat) : ∀ (s : State) (fuel : Nat), s.lrx.assembler ≠ .frame [] →
    s.lrx.assembler.held.length ≤ n → s.lrx.assembler.held.length ≤ fuel →
    expireGaps time fuel s = expireGaps time s.lrx.assembler.held.length s := by
  induction n with
  | zero =>
    intro s fuel whole none _
    have hunt : s.lrx.assembler = .hunt := by
      cases e : s.lrx.assembler with
      | hunt => rfl
      | frame held => rw [e] at none whole; simp [Assembler.held] at none; exact absurd (by rw [none]) whole
    have ranOut : s.gapOver time = false := by simp [State.gapOver, hunt]
    cases fuel <;> simp [hunt, Assembler.held, expireGaps, ranOut]
  | succ n ih =>
    intro s fuel whole most le
    cases ranOut : s.gapOver time with
    | false =>
      cases fuel <;> cases s.lrx.assembler.held.length <;> simp [expireGaps, ranOut]
    | true =>
      obtain ⟨frame, at_, runs⟩ := gapOver_frame ranOut
      obtain ⟨whole', held'⟩ := onGapTimer_held at_ runs
      have some_ : frame ≠ [] := fun e => whole (by rw [at_, e])
      have pos : frame.length = (frame.length - 1) + 1 := by have := List.length_pos_of_ne_nil some_; omega
      rw [at_] at most le ⊢
      simp only [Assembler.held] at most le ⊢
      obtain ⟨fuel, rfl⟩ : ∃ m, fuel = m + 1 := ⟨fuel - 1, by omega⟩
      rw [pos]
      simp only [expireGaps, ranOut, if_true]
      rw [ih _ fuel whole' (by omega) (by omega)]
      exact (ih _ (frame.length - 1) whole' (by omega) (by omega)).symm

/-- R163, R164: a character that began after the gap had run out comes after the GAP reject. -/
theorem charEndsAt_late {s : State} {time : Nat} {frame : List Byte} (h : s.lrx.assembler = .frame frame)
    (some_ : frame ≠ []) (late : ¬ s.inTime time) : charEndsAt time s = charEndsAt time (onGapTimer s) := by
  have ranOut := (gapOver_eq h).2 late
  obtain ⟨_, _, runs⟩ := gapOver_frame ranOut
  obtain ⟨whole, held⟩ := onGapTimer_held h runs
  have pos : frame.length = (frame.length - 1) + 1 := by have := List.length_pos_of_ne_nil some_; omega
  have step : expireGaps time s.lrx.assembler.held.length s = expireGaps time (frame.length - 1) (onGapTimer s) := by
    rw [h]; simp only [Assembler.held]; rw [pos]; simp only [expireGaps, ranOut, if_true]; rfl
  unfold charEndsAt
  rw [step, expireGaps_enough time _ _ (frame.length - 1) whole held held]

/-! ### TXD (R170, R171) -/

@[simp] theorem quietTxd_txd (since : Nat) (s : State) : (quietTxd since s).ltx.txd = .idle since := rfl

@[simp] theorem quietTxd_outbound (since : Nat) (s : State) : (quietTxd since s).ltx.outbound = s.ltx.outbound := rfl

@[simp] theorem freePlace_outbound (s : State) : (freePlace s).ltx.outbound = s.ltx.outbound.tail := rfl

@[simp] theorem freePlace_txd (s : State) : (freePlace s).ltx.txd = s.ltx.txd := rfl

/-- A cut never lengthens what TXD carries. -/
theorem cutAt_ends_le {rate : BitRate} {now ends began : Nat} {t : Txd} (h : t = .sending began ends) :
    ∃ e ≤ ends, t.cutAt rate now = .cut e := ⟨_, Nat.min_le_left _ _, by subst h; rfl⟩

/-- A transmission under way is not begun again. -/
theorem startTransmission_busy {s : State} (h : ∀ since, s.ltx.txd ≠ .idle since) : startTransmission s = s := by
  have : s.ltx.start s.rate s.now s.attn = s.ltx := by
    unfold LineTransmitter.start
    split
    · next since _ _ idle _ => exact absurd idle (h since)
    · rfl
  unfold startTransmission
  rw [this]

end Sys2Proof.Machine
end

