-- ==== Sys2Proof/Laws/Outlets.lean ====
section
/-! SUPPORT. What releases, strands and outlet faults do to the outlet records: which fields of an outlet they keep. -/

namespace Sys2Proof.Machine

/-! ### Reads that depend on few fields -/

theorem State.z_congr {s t : State} (h : t.tables = s.tables) : t.z = s.z := by simp [State.z, State.dial, h]

theorem State.outletEntry_congr {s t : State} (h : t.tables = s.tables) (n : Fin 16) :
    t.outletEntry n = s.outletEntry n := by simp [State.outletEntry, h]

theorem State.ringOffset_congr {s t : State} (h : t.tracker = s.tracker) (name : RecordName) :
    t.ringOffset name = s.ringOffset name := by simp [State.ringOffset, h]

theorem State.firingPlace_congr {s t : State} (h : t.tracker = s.tracker) (name : RecordName) :
    t.firingPlace name = s.firingPlace name := by simp [State.firingPlace, h]

theorem State.pocketAt_congr {s t : State} (h : t.tables = s.tables) (h' : t.tracker.loadPocket = s.tracker.loadPocket)
    (k : Nat) : t.pocketAt k = s.pocketAt k := by simp [State.pocketAt, State.dial, h, h']

/-! ### One outlet -/

/-- The fields of an outlet record that no release, slot or strobe touches. -/
def Outlet.sameBooks (o o' : Outlet) : Prop :=
  o'.state = o.state ∧ o'.committed = o.committed ∧ o'.lotTotal = o.lotTotal ∧ o'.missRun = o.missRun
    ∧ o'.queue = o.queue

theorem Outlet.sameBooks.refl (o : Outlet) : o.sameBooks o := ⟨rfl, rfl, rfl, rfl, rfl⟩

theorem Outlet.sameBooks.trans {a b c : Outlet} (h : a.sameBooks b) (h' : b.sameBooks c) : a.sameBooks c :=
  ⟨h'.1.trans h.1, h'.2.1.trans h.2.1, h'.2.2.1.trans h.2.2.1, h'.2.2.2.1.trans h.2.2.2.1, h'.2.2.2.2.trans h.2.2.2.2⟩

theorem Outlet.forget_same (name : RecordName) (o : Outlet) : o.sameBooks (o.forget name) := ⟨rfl, rfl, rfl, rfl, rfl⟩

@[simp] theorem Outlet.forget_reserved (name : RecordName) (o : Outlet) : (o.forget name).reserved = o.reserved := rfl

/-- Forgetting a record keeps a quiet drive quiet, a pulse a pulse and a strobe a strobe. -/
theorem Outlet.forget_queueBound (name : RecordName) (o : Outlet) : (o.forget name).queueBound ↔ o.queueBound := by
  unfold Outlet.queueBound Outlet.forget
  cases o.drive with
  | quiet => rfl
  | pulse ends => rfl
  | strobe expires claim => cases claim <;> rfl

theorem forget_outlet (name : RecordName) (s : State) (m : Nat) (h : m < 16) :
    (forget name s).outlets[m] = s.outlets[m].forget name := by simp [forget]

/-- A release takes one reservation from the target outlet and makes every outlet forget the record. -/
theorem release_outlet (r : PocketRecord) (s : State) (m : Nat) (h : m < 16) :
    (release r s).outlets[m] =
      Outlet.forget r.name
        { s.outlets[m] with
          reserved :=
            if r.target.map (fun t => (t.outlet : Nat)) = some m then s.outlets[m].reserved - 1
            else s.outlets[m].reserved } := by
  unfold release
  cases ht : r.target with
  | none => simp [forget_outlet]
  | some t =>
    simp [forget_outlet, modOutlet_get]
    split <;> rfl

/-- A release when the record is DECIDED is what the claims call `Outlet.released`. -/
theorem releaseIfDecided_outlet (r : PocketRecord) (s : State) (n : Fin 16) :
    (releaseIfDecided r s).outlets[n] = s.outlets[n].released r n := by
  unfold releaseIfDecided Outlet.released
  split
  · have := release_outlet r s n n.isLt
    have e : (r.target.map (fun t => (t.outlet : Nat)) = some (n : Nat)) ↔ r.target.map Route.outlet = some n := by
      cases r.target <;> simp [Fin.ext_iff]
    simpa only [e, Fin.getElem_fin] using this
  · rfl

theorem release_same (r : PocketRecord) (s : State) (m : Nat) (h : m < 16) :
    s.outlets[m].sameBooks (release r s).outlets[m] := by
  rw [release_outlet]; exact ⟨rfl, rfl, rfl, rfl, rfl⟩

theorem release_queueBound (r : PocketRecord) (s : State) (m : Nat) (h : m < 16) :
    (release r s).outlets[m].queueBound ↔ s.outlets[m].queueBound := by
  rw [release_outlet, Outlet.forget_queueBound]; rfl

/-! ### Strands -/

/-- Everything `strandSlot` can do: nothing, end the slot, or end it and strand a DECIDED record of the ring. -/
theorem strandSlot_cases (n : Fin 16) (s : State) :
    (s.outlets[n].slot = .free ∧ strandSlot n s = s) ∨
    (∃ name, s.outlets[n].slot.name = some name ∧
      (strandSlot n s = modOutlet n (fun o => { o with slot := .free }) s ∨
       ∃ k r, s.ringOffset name = some k ∧ s.tracker.ring[k]? = some r ∧ r.phase = .decided ∧
        strandSlot n s =
          modRing k (.strand .outletFaulted) (release r (modOutlet n (fun o => { o with slot := .free }) s)))) := by
  have hr : ∀ name, (modOutlet n (fun o => { o with slot := .free }) s).ringOffset name = s.ringOffset name := fun _ => rfl
  have named : ∀ name, s.outlets[n].slot.name = some name →
      (strandSlot n s = modOutlet n (fun o => { o with slot := .free }) s ∨
       ∃ k r, s.ringOffset name = some k ∧ s.tracker.ring[k]? = some r ∧ r.phase = .decided ∧
        strandSlot n s =
          modRing k (.strand .outletFaulted) (release r (modOutlet n (fun o => { o with slot := .free }) s))) := by
    intro name hn
    unfold strandSlot
    simp only [hn, hr, modOutlet_tracker]
    cases hk : s.ringOffset name with
    | none => simp
    | some k =>
      cases hq : s.tracker.ring[k]? with
      | none => simp [hq]
      | some r => by_cases hp : r.phase = .decided <;> simp [hq, hp]
  cases hs : s.outlets[n].slot with
  | free => left; unfold strandSlot; simp only [hs, Slot.name, and_self]
  | delay name x => right; exact ⟨name, rfl, named name (by rw [hs]; rfl)⟩
  | due name => right; exact ⟨name, rfl, named name (by rw [hs]; rfl)⟩

/-- Everything `strandClaim` can do: nothing, or strand a DECIDED record of the ring. -/
theorem strandClaim_cases (claim : Option RecordName) (s : State) :
    strandClaim claim s = s ∨
    ∃ name k r, claim = some name ∧ s.ringOffset name = some k ∧ s.tracker.ring[k]? = some r ∧ r.phase = .decided ∧
      strandClaim claim s = modRing k (.strand .outletFaulted) (release r s) := by
  unfold strandClaim
  cases claim with
  | none => simp
  | some name =>
    simp only
    cases hk : s.ringOffset name with
    | none => simp
    | some k =>
      simp only
      cases hq : s.tracker.ring[k]? with
      | none => simp
      | some r =>
        by_cases hp : r.phase = .decided
        · right; exact ⟨name, k, r, rfl, hk, hq, hp, by simp [hp]⟩
        · left; simp [hp]

theorem endSlot_same (n : Fin 16) (s : State) (m : Nat) (h : m < 16) :
    s.outlets[m].sameBooks (modOutlet n (fun o => { o with slot := .free }) s).outlets[m] := by
  rw [modOutlet_get]; split <;> exact ⟨rfl, rfl, rfl, rfl, rfl⟩

theorem strandSlot_same (n : Fin 16) (s : State) (m : Nat) (h : m < 16) :
    s.outlets[m].sameBooks (strandSlot n s).outlets[m] := by
  rcases strandSlot_cases n s with ⟨_, e⟩ | ⟨_, _, e | ⟨k, r, _, _, _, e⟩⟩
  · rw [e]; exact .refl _
  · rw [e]; exact endSlot_same n s m h
  · rw [e]; exact (endSlot_same n s m h).trans (release_same r _ m h)

theorem strandSlot_queueBound (n : Fin 16) (s : State) (m : Nat) (h : m < 16) :
    (strandSlot n s).outlets[m].queueBound ↔ s.outlets[m].queueBound := by
  have ends : (modOutlet n (fun o => { o with slot := .free }) s).outlets[m].queueBound ↔ s.outlets[m].queueBound := by
    rw [modOutlet_get]; split <;> rfl
  rcases strandSlot_cases n s with ⟨_, e⟩ | ⟨_, _, e | ⟨k, r, _, _, _, e⟩⟩
  · rw [e]
  · rw [e]; exact ends
  · rw [e]; exact (release_queueBound r _ m h).trans ends

theorem strandSlot_slot (n : Fin 16) (s : State) : (strandSlot n s).outlets[n].slot = .free := by
  rcases strandSlot_cases n s with ⟨f, e⟩ | ⟨_, _, e | ⟨k, r, _, _, _, e⟩⟩
  · rw [e]; exact f
  · rw [e]; simp
  · rw [e]
    have : (release r (modOutlet n (fun o => { o with slot := .free }) s)).outlets[(n : Nat)].slot = .free := by
      rw [release_outlet]; simp [Outlet.forget]
    simpa using this

theorem strandClaim_same (claim : Option RecordName) (s : State) (m : Nat) (h : m < 16) :
    s.outlets[m].sameBooks (strandClaim claim s).outlets[m] := by
  rcases strandClaim_cases claim s with e | ⟨_, k, r, _, _, _, _, e⟩
  · rw [e]; exact .refl _
  · rw [e]; exact release_same r _ m h

theorem strandClaim_queueBound (claim : Option RecordName) (s : State) (m : Nat) (h : m < 16) :
    (strandClaim claim s).outlets[m].queueBound ↔ s.outlets[m].queueBound := by
  rcases strandClaim_cases claim s with e | ⟨_, k, r, _, _, _, _, e⟩
  · rw [e]
  · rw [e]; exact release_queueBound r _ m h

/-! ### Outlet faults and misses -/

/-- `faultOutlet` on an outlet that is not FAULTED: its state changes, OUTLET_FAULT is raised, its slot's record is
stranded; on one that is FAULTED, the slot's record is stranded. -/
theorem faultOutlet_outlet (n : Fin 16) (s : State) (m : Nat) (h : m < 16) :
    Outlet.sameBooks { s.outlets[m] with state := if (n : Nat) = m then .faulted else s.outlets[m].state }
      (faultOutlet n s).outlets[m] := by
  by_cases hf : s.outlets[n].state = .faulted
  · have := strandSlot_same n s m h
    rw [faultOutlet, if_pos hf]
    by_cases e : (n : Nat) = m
    · subst e
      simp at hf
      simpa [Outlet.sameBooks, hf] using this
    · simpa [Outlet.sameBooks, e] using this
  · have := strandSlot_same n (raiseNotice .outletFault n.val (modOutlet n (fun o => { o with state := .faulted }) s)) m h
    rw [faultOutlet, if_neg hf]
    simp only [raiseNotice_outlets, modOutlet_get] at this
    by_cases e : (n : Nat) = m
    · simpa [Outlet.sameBooks, e] using this
    · simpa [Outlet.sameBooks, e] using this

theorem faultOutlet_queueBound (n : Fin 16) (s : State) (m : Nat) (h : m < 16) :
    (faultOutlet n s).outlets[m].queueBound ↔ s.outlets[m].queueBound := by
  unfold faultOutlet
  split
  · exact strandSlot_queueBound n s m h
  · rw [strandSlot_queueBound, raiseNotice_outlets, modOutlet_get]; split <;> rfl

theorem faultOutlet_slot (n : Fin 16) (s : State) : (faultOutlet n s).outlets[n].slot = .free := by
  unfold faultOutlet; split <;> exact strandSlot_slot n _

/-- A DUE slot is tested again; an outlet without one is left alone (R74 to R76). -/
theorem retestDue_skip (n : Fin 16) (s : State) (h : ∀ name, s.outlets[n].slot ≠ .due name) : retestDue n s = s := by
  unfold retestDue
  split
  · next name e => exact absurd e (h name)
  · rfl
  · rfl

end Sys2Proof.Machine
end

