-- ==== Sys2Proof/WellFormed.lean ====
section
/-! DEFINITION. Which commands are well formed. -/

namespace Sys2Proof

/-- What a LineTrouble must satisfy: a LENGTH reject is made by a LEN byte above 56 (R164). -/
def LineTrouble.wellFormed : LineTrouble → Bool
  | .length len => decide (Config.maxInboundLen < len.toNat)
  | .framing => true
  | .lineBreak => true

/-- Every operand type but a LEN byte's already holds only what the manual admits. -/
def Instr.wellFormed : Instr → Bool
  | .forwardIndex _ _ => true
  | .reverseIndex _ => true
  | .checkSample _ => true
  | .fireDelayExpiry _ => true
  | .pulseEnd _ => true
  | .ack _ _ => true
  | .ackLimitExpiry _ => true
  | .drop _ _ => true
  | .flightMaxMiss _ => true
  | .jamRise _ => true
  | .jamFall _ => true
  | .powerOn => true
  | .supplyLow => true
  | .external => true
  | .frameReject _ trouble => trouble.wellFormed
  | .gapTimer => true
  | .frameComplete _ _ => true
  | .halt _ => true
  | .coreReset => true
  | .meas => true
  | .statusQuery => true
  | .pocketQuery => true
  | .outletQuery => true
  | .tableWrite => true
  | .tableRead => true
  | .tableDiscard => true
  | .tableCommit => true
  | .lotStart => true
  | .lotEnd => true
  | .lotAbort => true
  | .outletReset => true
  | .clearFault => true
  | .noticeAck => true
  | .noticeMask => true
  | .nodeAssign => true
  | .unknownKind => true
  | .transmissionEnd => true
  | .urgentReply => true
  | .summaryStage => true
  | .notice => true
  | .characterReceived _ _ => true
  | .resetHoldEnd _ _ _ _ => true

end Sys2Proof
end

