-- ==== Sys2Proof/Tests/Slice0.lean ====
section
/-! SUPPORT. Tests: well-formedness, the CRC and byte orders, one small step for each command, and for every statement with
hypotheses a state that meets them. -/

namespace Sys2Proof.Tests

open Sys2Proof Sys2Proof.Machine

/-! ### Well-formedness -/

theorem test_smoke_length_56_refused : (Instr.frameReject 0 (.length 56)).wellFormed = false := by decide

theorem test_smoke_length_57_admitted : (Instr.frameReject 0 (.length 57)).wellFormed = true := by decide

theorem test_no_word_spells_a_command : decodeTableWord 16 0x1234 = none := rfl

/-! ### Encodings -/

/-- The CRC of the ASCII digits 1 to 9 under the polynomial, start and bit order of R117. -/
theorem test_crc_digits : frameCrc [0x31, 0x32, 0x33, 0x34, 0x35, 0x36, 0x37, 0x38, 0x39] = 0x29B1 := by decide +kernel

theorem test_most_significant_byte_first : bytesOf 2 0x1234 = [0x12, 0x34] ∧ natOf [0x12, 0x34] = 0x1234 := by decide

theorem test_twos_complement : intOf [0xFF, 0xFF, 0x9C] = -100 ∧ signedBytesOf 3 (-100) = [0xFF, 0xFF, 0x9C] := by decide

/-- The rows of the first table of section 2.7, in 0.001 Ω. -/
theorem test_deviation_examples :
    deviationOf 10000500 10000000 = 50 ∧ deviationOf 9998999 10000000 = -100 ∧ deviationOf 10001009 10000000 = 100
      ∧ deviationOf 9999999 10000000 = 0 ∧ deviationOf 9996200 10000000 = -380 ∧ deviationOf 10009990 10000000 = 999
      ∧ deviationOf 10010010 10000000 = 1001 ∧ deviationOf 25000000 10000000 = 1500000
      ∧ deviationOf 0 10000000 = -1000000 := by decide

/-- The rows of the second table of section 2.7. -/
theorem test_drift_examples :
    driftOf 10000500 10003000 = 249 ∧ driftOf 10000500 10003100 = 259 ∧ driftOf 10000500 9998000 = 249
      ∧ driftOf 9996200 9993700 = 250 ∧ driftOf 0 5 = 999999 := by decide

theorem test_milliohms : milliohms (9998999, -3) = 9998999 ∧ milliohms (25, 3) = 25000000 := by decide

/-- START after power on: SYNC, FLAGS with ATTN, KIND, TAG, LEN 5, condition 0, detail 0, CRC. -/
theorem test_start_frame :
    (State.reset.ltx.outbound.map fun f => f.bytes.take 10) = [[0xC3, 0x08, 0x81, 0x00, 0x05, 0, 0, 0, 0, 0]] := by
  decide +kernel

/-! ### States: the dial and tables of the worked example of chapter 8 -/

def stationAt (offset allowance : Nat) : StationEntry := { enabled := true, offset := offset, allowance := allowance }

def outletAt (offset : Nat) (mode : DriveMode) (missLimit : Nat) (sweep : Bool) : OutletEntry :=
  { enabled := true, offset := offset, mode := mode, fireDelay := 500, pulseWidth := 1000, ackLimit := 1000,
    flightMin := 100, flightMax := 20000, capacity := 1000, overflow := none, missLimit := missLimit, sweep := sweep }

/-- P 8, Z 6; outlets 0 (PULSE), 1 (GATED) and 15 (the sweep outlet); class 0 goes to outlet 0. -/
def tableSet : TableSet :=
  { dial := some { pockets := 8, checkOffset := 6, checkDelay := 1000 }
    stations := Vector.ofFn fun i => if i = 0 then some (stationAt 1 0) else if i = 1 then some (stationAt 2 0) else none
    outlets := Vector.ofFn fun i =>
      if i = 0 then some (outletAt 4 .pulse 3 false) else if i = 1 then some (outletAt 3 .gated 0 false)
      else if i = 15 then some (outletAt 5 .pulse 0 true) else none
    classes := Vector.ofFn fun i =>
      if i = 0 then some { enabled := true, lo := -1000, hi := 1000, outlet := 0 } else none
    lot := some { nominalMantissa := 10000, nominalExponent := 0, driftLimit := 250, contactReject := 0,
                  outOfTolerance := 0, driftReject := 0, retest := 0, abandon := false }
    link := some .default }

theorem test_tables_pass_validation : tableSet.invalid = none := by decide +kernel

/-- After reset, its START notice sent and acknowledged. -/
def quiet : State :=
  { State.reset with
    now := 100000
    ltx := { State.reset.ltx with outbound := [], txd := .idle 0 }
    notices := Vector.replicate 11 .clear }

def openOutlet (committed lotTotal reserved : Nat) : Outlet :=
  { Outlet.afterReset with state := .open, committed := committed, lotTotal := lotTotal, reserved := reserved }

def ready : State :=
  { quiet with
    tables := { active := some tableSet, staged := tableSet, check := 0xFFFF }
    outlets := Vector.ofFn fun i => if i = 0 ∨ i = 1 ∨ i = 15 then openOutlet 0 0 0 else .afterReset
    sup := { State.reset.sup with engine := .ready } }

def mkRec (seq : Nat) (phase : Phase) (counted : Bool) : PocketRecord :=
  { PocketRecord.fresh (some seq) 0 phase with counted := counted }

def part : Result := { station := .contact, status := .part, value := none }

def rec49 : PocketRecord := { mkRec 49 .held true with results := [part] }

def rec47 : PocketRecord :=
  { mkRec 47 .decided true with target := some ⟨0, 0⟩, finalClass := some (.cls 0), reason := some .inClass }

def rec46 : PocketRecord :=
  { mkRec 46 .firing true with target := some ⟨0, 0⟩, finalClass := some (.cls 0), reason := some .inClass }

def entry46 : Entry :=
  { name := .numbered 46, counted := true, fireTime := 99000, pocket := 7, finalClass := some (.cls 0),
    reason := some .inClass, hops := 0, deviation := none, drift := none }

def bin0 : Outlet := { openOutlet 20 20 2 with queue := [entry46] }

/-- A lot in SORTING: the ring, the counters and outlet 0 of the worked example. -/
def sorting : State :=
  { ready with
    tracker := { State.reset.tracker with
      ring := [mkRec 50 .open false, rec49, mkRec 48 .empty false, rec47, rec46, mkRec 45 .gone true, mkRec 44 .gone true]
      loadPocket := some 3
      nextSeq := some 51 }
    outlets := Vector.ofFn fun i =>
      if i = 0 then bin0 else if i = 1 then openOutlet 0 0 0 else if i = 15 then openOutlet 6 6 0 else .afterReset
    sup := { ready.sup with engine := .sorting, lotId := some 5, present := 29 } }

/-- The state with one record put at a ring offset. -/
def put (k : Nat) (r : PocketRecord) (s : State) : State := setRing (s.tracker.ring.set k r) s

/-- The state with one outlet record changed. -/
def outletWith (n : Fin 16) (o : Outlet) (s : State) : State := modOutlet n (fun _ => o) s

/-- The state with the supervisor changed. -/
def supWith (f : Supervisor → Supervisor) (s : State) : State := { s with sup := f s.sup }

def clearing : State :=
  supWith (fun u => { u with engine := .clearing, clearance := some { stage := .runOut, kind := .ran, count := 0 } }) sorting

def halted : State :=
  supWith (fun u => { u with
    engine := .halted
    returnState := some .sorting
    faults := { first := some { code := .jam, loadPocket := 3, seq := none }, later := [], overflow := false } }) sorting

/-- One frame of a KIND stands in the inbound queue. -/
def inbox (kind : Byte) (payload : List Byte) (s : State) : State :=
  { s with lrx := { s.lrx with inbound := [{ dest := 0, kind := kind, tag := 7, payload := payload }] } }

def frameOf (kind : Byte) (payload : List Byte) : InFrame := { dest := 0, kind := kind, tag := 7, payload := payload }

/-- A transmission that ends at 100,200 µs. -/
def sending : Txd := .sending 799000 801600

/-- The outbound queue holds `count` replies; TXD is as given. -/
def outboxed (count : Nat) (txd : Txd) (s : State) : State :=
  { s with ltx := { s.ltx with
      outbound := List.replicate count { tag := 0, body := .reply 0x10 .done [], flags := none }, txd := txd } }

def haltReply : OutFrame := { tag := 9, body := .reply 0x50 .done [], flags := none }

def urgentWith (replies : List OutFrame) (s : State) : State := { s with lrx := { s.lrx with urgent := replies } }

def assembling (a : Assembler) (s : State) : State :=
  { s with lrx := { s.lrx with assembler := a, gapTimer := some 100050, gapEnd := 100050 } }

/-- What a command makes of a state. -/
def after (c : Instr) (s : State) : State :=
  match exec c s with
  | .next t => t
  | .fault _ => s
  | .refused _ => s

/-! ### Reset -/

/-- `State.reset` is what a power-on hold and its end leave. -/
theorem test_reset_is_a_hold_and_its_end :
    after (.resetHoldEnd false false .low .low) (after .powerOn State.reset) = State.reset := by decide +kernel

theorem test_supply_low_cause : (after (.resetHoldEnd true true .floating .low) (after .supplyLow sorting)).sup.resetCause
    = .supplyLow := by decide +kernel

theorem test_external_holds : (after .external sorting).held = true ∧ (after .powerOn sorting).held = true := by
  decide +kernel

theorem test_straps : (after (.resetHoldEnd true false .high .low) (after .external sorting)).rate = .mbit4
    ∧ (after (.resetHoldEnd true false .high .low) (after .external sorting)).lrx.nodeAddress = some 2 := by decide +kernel

/-- At 100,000 µs the thirteenth character of the frame on TXD is in progress; START follows it (log 15). -/
theorem test_core_reset_cuts_frame : (after .coreReset (outboxed 2 sending quiet)).ltx.txd = .cut 800040
    ∧ (after .transmissionEnd (after .coreReset (outboxed 2 sending quiet))).ltx.txd = .sending 800040 801000 := by
  decide +kernel

theorem test_core_reset_keeps_committed : (after .coreReset sorting).outlets[0].committed = 20
    ∧ (after .coreReset sorting).sup.engine = .ready := by decide +kernel

/-! ### The dial and the check position -/

theorem test_forward_index_moves : (after (.forwardIndex 100030 false) sorting).tracker.ring.map PocketRecord.seq
    = [some 51, some 50, some 49, some 48, some 47, some 46, some 45] := by decide +kernel

theorem test_forward_index_arrival : (after (.forwardIndex 100030 false) sorting).outlets[0].slot
    = .delay (.numbered 47) 100530 := by decide +kernel

theorem test_reverse_index_underflow : (after (.reverseIndex 100030) sorting).tracker.ring.map PocketRecord.phase
    = [.held, .empty, .decided, .firing, .gone, .gone, .void] := by decide +kernel

theorem test_check_sample_part : (after (.checkSample true)
    { sorting with tracker := { sorting.tracker with checkTimer := some 100100 } }).sup.faults.first
      = some { code := .partRetained, loadPocket := 3, seq := some 44 } := by decide +kernel

theorem test_check_sample_clear : (after (.checkSample false) (put 6 { rec49 with phase := .stranded }
    { sorting with tracker := { sorting.tracker with checkTimer := some 100100 } })).sup.unaccounted = 1 := by
  decide +kernel

theorem test_jam : (after (.jamRise 100001) sorting).sup.engine = .halted
    ∧ (after (.jamFall 100001) { halted with jam := true }).jam = false := by decide +kernel

/-! ### The outlets -/

/-- seq 47 stands at outlet 0 and its fire delay runs. -/
def delayed : State := outletWith 0 { bin0 with slot := .delay (.numbered 47) 100500 } sorting

theorem test_fire_delay_expiry : (after (.fireDelayExpiry 0) delayed).outlets[0].drive = .pulse 101500
    ∧ (after (.fireDelayExpiry 0) delayed).outlets[0].queue.length = 2 := by decide +kernel

theorem test_pulse_end : (after (.pulseEnd 0) (outletWith 0 { bin0 with drive := .pulse 100700 } sorting)).now = 100700 := by
  decide +kernel

/-- seq 47 waits for the ACK of outlet 1. -/
def struck : State :=
  outletWith 1 { openOutlet 0 0 1 with drive := .strobe 101000 (some (.numbered 47)) }
    (put 3 { rec47 with target := some ⟨1, 0⟩ } sorting)

/-- seq 47 waits for the ACK of outlet 1, and seq 49, decided for it too, is DUE there. -/
def struckDue : State :=
  outletWith 1 { openOutlet 0 0 2 with drive := .strobe 101000 (some (.numbered 47)), slot := .due (.numbered 49) }
    (put 1 { rec49 with phase := .decided, target := some ⟨1, 0⟩ } struck)

theorem test_ack : (after (.ack 100200 1) struck).outlets[1].queue.map Entry.fireTime = [100200] := by decide +kernel

theorem test_ack_limit : (after (.ackLimitExpiry 1) struck).outlets[1].state = .faulted
    ∧ ((after (.ackLimitExpiry 1) struck).tracker.ring.map PocketRecord.reason)[3]? = some (some .outletFaulted) := by
  decide +kernel

/-- At the ack limit the claimed record and the slot's record are stranded, and both reservations released (R76, R81). -/
theorem test_ack_limit_strands_both : (after (.ackLimitExpiry 1) struckDue).outlets[1].reserved = 0
    ∧ (after (.ackLimitExpiry 1) struckDue).tracker.ring.map PocketRecord.phase
      = [.open, .stranded, .empty, .stranded, .firing, .gone, .gone] := by decide +kernel

/-- After the ACK the DUE record's strobe begins within the event (R75). -/
theorem test_ack_begins_due_fire : (after (.ack 100200 1) struckDue).outlets[1].drive
    = .strobe 101200 (some (.numbered 49)) := by decide +kernel

theorem test_drop : (after (.drop 100030 0) sorting).outlets[0].lotTotal = 21
    ∧ (after (.drop 100030 1) sorting).sup.strays = 1 := by decide +kernel

theorem test_flight_max : (after (.flightMaxMiss 0) sorting).outlets[0].missRun = 1
    ∧ ((after (.flightMaxMiss 0) sorting).tracker.ring.map PocketRecord.reason)[4]? = some (some .missedDrop) := by
  decide +kernel

/-! ### Frames -/

theorem test_meas_contact : (after .meas (inbox 1 [0, 2, 0] (put 1 (mkRec 49 .open false) sorting))).sup.present = 30 := by
  decide +kernel

theorem test_meas_value : ((after .meas (inbox 1 ([1, 1, 3] ++ bytesOf 3 10000 ++ [0]) (put 2 rec49 sorting))).tracker.ring.map
    PocketRecord.target)[2]? = some (some ⟨0, 0⟩) := by decide +kernel

theorem test_queries_answer : (after .statusQuery (inbox 0x10 [] sorting)).lrx.inbound = []
    ∧ (after .pocketQuery (inbox 0x11 [0, 3] sorting)).ltx.outbound.length = 1
    ∧ (after .outletQuery (inbox 0x12 [0] sorting)).lrx.inbound = [] := by decide +kernel

/-- A record with every field, its results of 2 and 6 bytes, and one with none (R174). -/
theorem test_pocket_record_bytes :
    ({ mkRec 47 .decided true with
        checked := true, saturated := true, provisional := some 1, finalClass := some .retest, reason := some .meterError
        target := some ⟨15, 5⟩, deviation := some (-100), drift := some 258
        results := [part, { station := .value, status := .ok, value := some (10000, -1) }] } : PocketRecord).bytes
      = [0x7F, 4, 7, 2, 0, 0, 1, 3, 0, 0x27, 0x10, 0xFF, 0, 0, 0, 47, 1, 0x43, 5, 15, 5, 0xFF, 0xFF, 0x9C, 0, 1, 2]
      ∧ (PocketRecord.fresh none 0 .void).bytes = [0, 0, 0, 0] := by decide +kernel

/-- The LINK entry's write folds its payload into the check. -/
theorem test_table_write : (after .tableWrite (inbox 0x20 [6, 0, 12, 4, 0, 50] ready)).tables.check
    = crcFold 0xFFFF [6, 0, 12, 4, 0, 50] := by decide +kernel

theorem test_table_read : (after .tableRead (inbox 0x21 [0, 6, 0] ready)).ltx.outbound.map OutFrame.body
    = [.reply 0x21 .done [0, 6, 0, 1, 12, 4, 0, 50]] := by decide +kernel

theorem test_table_discard : (after .tableDiscard (inbox 0x22 [] quiet)).ltx.outbound.map OutFrame.body
    = [.reply 0x22 .done [0xFF, 0xFF]] := by decide +kernel

/-- Staged tables that no commit has activated yet. -/
def staged : State := { quiet with tables := { active := none, staged := tableSet, check := 0xFFFF } }

theorem test_table_commit : (after .tableCommit (inbox 0x23 [0xFF, 0xFF] staged)).sup.engine = .ready
    ∧ (after .tableCommit (inbox 0x23 [0xFF, 0xFF] staged)).outlets[15].state = .open := by decide +kernel

theorem test_lot_start : (after .lotStart (inbox 0x30 [0, 0, 0, 9, 3] ready)).sup.engine = .sorting
    ∧ (after .lotStart (inbox 0x30 [0, 0, 0, 9, 3] ready)).tracker.ring.length = 7 := by decide +kernel

theorem test_lot_end : (after .lotEnd (inbox 0x31 [] sorting)).sup.engine = .clearing := by decide +kernel

theorem test_lot_abort : (after .lotAbort (inbox 0x32 [] sorting)).sup.unaccounted = 3
    ∧ (after .lotAbort (inbox 0x32 [] sorting)).sup.engine = .ready := by decide +kernel

theorem test_outlet_reset : (after .outletReset (inbox 0x33 [0] sorting)).ltx.outbound.map OutFrame.body
    = [.reply 0x33 .done [0, 0, 20]] := by decide +kernel

theorem test_clear_fault : (after .clearFault (inbox 0x34 [] halted)).sup.engine = .sorting := by decide +kernel

theorem test_notices : (after .noticeAck (inbox 0x40 [0, 1] State.reset)).pendingWord = 0
    ∧ (after .noticeMask (inbox 0x41 [4, 1] State.reset)).maskWord = 0x401 := by decide +kernel

theorem test_node_assign : (after .nodeAssign (inbox 0x42 [2]
    { quiet with lrx := { quiet.lrx with nodeAddress := none } })).lrx.nodeAddress = some 2 := by decide +kernel

theorem test_unknown_kind : (after .unknownKind (inbox 0x77 [] quiet)).ltx.outbound.map OutFrame.body
    = [.reply 0x77 .unknownKind []] := by decide +kernel

theorem test_halt : (after (.halt 9) sorting).sup.engine = .halted
    ∧ (after (.halt 9) ready).ltx.outbound.map OutFrame.body = [.reply 0x50 .refusedState []] := by decide +kernel

/-! ### The line -/

theorem test_transmission_end : (after .transmissionEnd State.reset).ltx.outbound = []
    ∧ (after .transmissionEnd State.reset).now = 120 := by decide +kernel

/-- At 8 Mbit/s a reply of 9 characters takes 11.25 µs, and the next one begins as it ends. -/
theorem test_no_gap_between_frames :
    (after .transmissionEnd (outboxed 2 (.sending 800000 800090) { quiet with rate := .mbit8 })).ltx.txd
      = .sending 800090 800180 := by decide +kernel

theorem test_urgent_reply : (after .urgentReply (urgentWith [haltReply] quiet)).ltx.outbound.length = 1 := by decide +kernel

theorem test_notice : (after .notice { quiet with
    notices := quiet.notices.set 9 { pending := true, masked := false, owed := true, detail := 2 } }).ltx.outbound.map
      OutFrame.body = [.notice .jam 2] := by decide +kernel

/-- Everything has run out; the lot can close. -/
def finishing : State :=
  supWith (fun u => { u with engine := .clearing, clearance := some { stage := .summary, kind := .ran, count := 9 } })
    (outletWith 0 (openOutlet 20 20 0)
      { sorting with tracker := { sorting.tracker with ring := List.replicate 7 (mkRec 40 .gone true) } })

theorem test_summary_stage : (after .summaryStage finishing).sup.engine = .ready
    ∧ (after .summaryStage finishing).tracker.ring = [] := by decide +kernel

theorem test_character : (after (.characterReceived 100010 0xC3) quiet).lrx.assembler = .frame [0xC3]
    ∧ (after (.characterReceived 100010 0xC3) quiet).lrx.gapTimer = some 100060 := by decide +kernel

/-- A STATUS_QUERY frame to node 0, all but its last byte. -/
def statusFrame : List Byte := [0xC3, 0x00, 0x10, 0x07, 0x00] ++ (bytesOf 2 (frameCrc [0x00, 0x10, 0x07, 0x00]).toNat).take 1

def statusLast : Byte := BitVec.ofNat 8 (frameCrc [0x00, 0x10, 0x07, 0x00]).toNat

theorem test_frame_complete : (after (.frameComplete 100010 statusLast) (assembling (.frame statusFrame) quiet)).lrx.inbound
    = [frameOf 0x10 []] := by decide +kernel

theorem test_frame_reject : (after (.frameReject 100010 .framing) (assembling (.frame statusFrame) quiet)).lrx.assembler = .hunt
    ∧ (after (.frameReject 100010 (.length 57)) (assembling (.frame [0xC3, 0, 1, 2]) quiet)).notices[7].detail = 0 := by
  decide +kernel

/-- A second SYNC among the held bytes begins the next frame when the first is rejected (R164). -/
theorem test_gap_searches_again : (after .gapTimer (assembling (.frame [0xC3, 0x00, 0xC3, 0x05]) quiet)).lrx.assembler
    = .frame [0xC3, 0x05] := by decide +kernel

/-- A character that ends at 100,059 µs began before the gap ran out at 100,050 µs; one that ends at 100,060 µs did not. -/
theorem test_gap_runs_to_the_start_of_a_character :
    (after (.characterReceived 100059 5) (assembling (.frame [0xC3, 0x00]) quiet)).lrx.assembler = .frame [0xC3, 0x00, 5]
      ∧ (after (.characterReceived 100060 5) (assembling (.frame [0xC3, 0x00]) quiet)).lrx.assembler = .hunt := by
  decide +kernel

/-- The gap limit is now 1,000 µs, but the gap in progress began under 50 µs (R123). -/
theorem test_gap_keeps_its_limit : (after .gapTimer (assembling (.frame [0xC3, 0x00, 0xC3, 0x05])
    { quiet with tables := { quiet.tables with active := some { tableSet with
        link := some { holdOn := 12, holdOff := 4, gapLimit := 1000 } } } })).lrx.gapTimer = some 100050 := by decide +kernel

/-- With no command waiting, the block serves its head frame next, or 1 µs passes (log 3). -/
theorem test_idle : (idle (inbox 0x10 [] quiet)).pending = [.statusQuery] ∧ (idle quiet).now = 100001 := by decide +kernel

/-! ### States that meet the hypotheses of the statements, by the statements' names -/

theorem meets_QueueLawIsKept : QueueLaw { sorting with pending := [.drop 100030 0] } := by
  have h : ∀ n : Fin 16, sorting.outlets[n].drive = .quiet ∧ sorting.outlets[n].queue.length ≤ 4 := by decide +kernel
  refine ⟨by decide +kernel, by decide +kernel, by decide +kernel, by decide +kernel, by decide +kernel, fun n => ?_⟩
  show sorting.outlets[n].queueBound
  unfold Outlet.queueBound
  rw [(h n).1]
  exact (h n).2

theorem meets_SupervisorLawIsKept : SupervisorLaw { halted with pending := [.halt 4] } :=
  ⟨by decide +kernel, by decide +kernel, by decide +kernel, by decide +kernel⟩

theorem meets_GeometryLawIsKept : GeometryLaw { sorting with pending := [.forwardIndex 100030 false] } :=
  ⟨by decide +kernel, fun t h => (Option.some.inj h) ▸ (by decide +kernel), by decide +kernel,
    fun _ => ⟨3, by decide +kernel⟩, by decide +kernel⟩

theorem meets_CounterLawIsKept : CounterLaw { clearing with pending := [.reverseIndex 100030] } :=
  ⟨by decide +kernel, by decide +kernel, by decide +kernel, by decide +kernel, by decide +kernel,
    fun c h => (Option.some.inj h) ▸ (by decide +kernel)⟩

theorem meets_HoldLawIsKept : HoldLaw { sorting with pending := [.meas] } := ⟨by decide +kernel, by decide +kernel⟩

/-- A drop waits for the lot in SORTING. -/
def dropping : State := { sorting with pending := [.drop 100030 0] }

theorem hasIssued_of {t : Tracker} {name : RecordName} {next : Nat} (h : t.nextSeq = some next)
    (below : (match name with
      | .numbered q => decide (q < next)
      | .unnumbered i => decide (i < t.nextIdent)) = true) : t.hasIssued name := by
  cases name with
  | numbered q => exact ⟨next, h, of_decide_eq_true below⟩
  | unnumbered i => exact Nat.lt_of_lt_of_le (of_decide_eq_true below) (Nat.le_refl _)

theorem dropping_names : NameLaw dropping := by
  refine ⟨by decide +kernel, by decide +kernel, fun r h => hasIssued_of (next := 51) rfl ?_,
    fun e h => hasIssued_of (next := 51) rfl ?_, by decide +kernel, by decide +kernel⟩
  · revert r h; decide +kernel
  · revert e h; decide +kernel

theorem dropping_geometry : GeometryLaw dropping :=
  ⟨by decide +kernel, fun t h => (Option.some.inj h) ▸ (by decide +kernel), by decide +kernel,
    fun _ => ⟨3, by decide +kernel⟩, by decide +kernel⟩

theorem meets_AccountLawIsKept : AccountLaw dropping := by
  refine ⟨by decide +kernel, fun n cfg h plain => ?_, fun _ => by decide +kernel⟩
  have all : ∀ n : Fin 16, (dropping.outletEntry n).all (fun cfg => cfg.sweep || decide (dropping.outlets[n].reserved = 0
      ∨ dropping.outlets[n].committed + dropping.outlets[n].reserved ≤ cfg.capacity)) = true := by decide +kernel
  have := all n
  rw [h] at this
  simpa [plain] using this

theorem meets_RecordLawIsKept : GeometryLaw dropping ∧ SupervisorLaw dropping ∧ AccountLaw dropping ∧ RecordLaw dropping := by
  have slots : ∀ n : Fin 16, dropping.outlets[n].slot.name = none ∧ dropping.outlets[n].drive.claim = none := by
    decide +kernel
  have free : ∀ (n : Fin 16) name, dropping.outlets[n].slot.name ≠ some name ∧ dropping.outlets[n].drive.claim ≠ some name :=
    fun n _ => ⟨fun h => (nomatch (slots n).1.symm.trans h), fun h => (nomatch (slots n).2.symm.trans h)⟩
  refine ⟨dropping_geometry, ⟨by decide +kernel, by decide +kernel, by decide +kernel, by decide +kernel⟩,
    meets_AccountLawIsKept, dropping_names,
    by decide +kernel, by decide +kernel, fun n name h => absurd h (free n name).1, fun n name h => absurd h (free n name).2,
    fun n name h => absurd h (free n name).1, fun _ r h => ?_, by decide +kernel, by decide +kernel, by decide +kernel⟩
  obtain rfl : mkRec 44 .gone true = r := Option.some.inj h
  decide

/-- Each state above takes its step. -/
theorem meets_steps :
    step dropping = .next (after (.drop 100030 0) sorting)
      ∧ step { halted with pending := [.halt 4] } = .next (after (.halt 4) halted)
      ∧ step { sorting with pending := [.forwardIndex 100030 false] } = .next (after (.forwardIndex 100030 false) sorting)
      ∧ step { clearing with pending := [.reverseIndex 100030] } = .next (after (.reverseIndex 100030) clearing)
      ∧ step { sorting with pending := [.meas] } = .next (after .meas sorting) := ⟨rfl, rfl, rfl, rfl, rfl⟩

theorem meets_FullResetHoldsEngine : sorting.held = false ∧ { sorting with held := true }.held = true
    ∧ ∀ r1 r0 a1 a0, Instr.coreReset ≠ .resetHoldEnd r1 r0 a1 a0 := ⟨rfl, rfl, fun _ _ _ _ => nofun⟩

theorem meets_ResetHoldEndsInResetState : (after .external sorting).held = true := by decide +kernel

/-- TXD idle, sending and ending a cut frame. -/
theorem meets_CoreResetKeepsTables : sorting.held = false ∧ sorting.outletEntry 0 = some (outletAt 4 .pulse 3 false)
    ∧ sorting.outletEntry 2 = none ∧ sorting.ltx.txd = .idle 0 ∧ (outboxed 2 sending sorting).ltx.txd = .sending 799000 801600
    ∧ (after .coreReset (outboxed 2 sending sorting)).ltx.txd = .cut 800040
    ∧ (after .coreReset (outboxed 2 sending sorting)).held = false := by decide +kernel

/-- In each kind of engine state the reply is admitted, waits (at 32 frames, or behind 3 others) or is not kept (behind 4). -/
theorem meets_HaltTakesEffectAtOnce :
    (∀ s ∈ [ready, sorting, clearing, halted], s.held = false ∧ s.ltx.outbound.length < 32 ∧ s.lrx.urgent = []
        ∧ 32 ≤ (outboxed 32 sending s).ltx.outbound.length ∧ (outboxed 32 sending s).lrx.urgent.length < 4
        ∧ (urgentWith [haltReply, haltReply, haltReply] s).lrx.urgent.length < 4
        ∧ 4 ≤ (urgentWith [haltReply, haltReply, haltReply, haltReply] s).lrx.urgent.length)
      ∧ ready.lotOpen = false ∧ sorting.firesAllowed = true ∧ clearing.firesAllowed = true ∧ halted.sup.engine = .halted
      ∧ halted.sup.faults.later.length < 4
      ∧ 4 ≤ (supWith (fun u => { u with faults := { u.faults with
          later := List.replicate 4 { code := .jam, loadPocket := 3, seq := none } } }) halted).sup.faults.later.length := by
  decide +kernel

theorem meets_JamEdgesAreTaken : ready.lotOpen = false ∧ sorting.firesAllowed = true ∧ clearing.firesAllowed = true
    ∧ halted.sup.engine = .halted ∧ ready.held = false := by decide +kernel

theorem meets_IdleEdgesAreIgnored : ready.held = false ∧ ready.lotOpen = false ∧ quiet.lotOpen = false
    ∧ sorting.outlets[0].drive = .quiet ∧ sorting.outlets[2].state = .disabled ∧ sorting.held = false := by
  decide +kernel

/-- The record at Z is as it stands, or RETAINED and counted; without a check delay the cancellation changes nothing. -/
theorem meets_ForwardIndexMovesRingUp : sorting.held = false ∧ sorting.lotOpen = true
    ∧ sorting.tracker.ring.length = sorting.z + 1 ∧ sorting.tracker.loadPocket = some 3 ∧ sorting.tracker.checkTimer = none
    ∧ sorting.tracker.ring[sorting.z]? = some (mkRec 44 .gone true)
    ∧ (put 6 (mkRec 44 .retained true) sorting).tracker.ring[sorting.z]? = some (mkRec 44 .retained true) := by decide +kernel

/-- HOME is active at load pocket 3, and inactive there. -/
theorem meets_HomeMismatchSuspectsRing : true ≠ decide (sorting.tracker.loadPocket = some 0)
    ∧ false = decide (sorting.tracker.loadPocket = some 0)
    ∧ sorting.tracker.ring[0]? = some (mkRec 50 .open false) ∧ sorting.tracker.ring[1]? = some rec49 ∧ rec49.phase = .held
    ∧ rec49.counted = true ∧ sorting.tracker.ring[3]? = some rec47 ∧ rec47.phase = .decided ∧ rec47.counted = true
    ∧ sorting.tracker.ring[4]? = some rec46 ∧ rec46.phase ∉ [Phase.held, .decided, .open] := by decide +kernel

theorem meets_DeadlinesDecideLateRecords : sorting.station .contact = some (stationAt 1 0)
    ∧ (put 2 (mkRec 48 .open false) sorting).tracker.ring[1 + 0 + 1]? = some (mkRec 48 .open false)
    ∧ sorting.tracker.ring[1 + 0 + 1]? = some (mkRec 48 .empty false) ∧ sorting.station .value = some (stationAt 2 0)
    ∧ (put 3 { rec49 with phase := .held } sorting).tracker.ring[2 + 0 + 1]? = some rec49
    ∧ (∀ x ∈ rec49.results, x.station ≠ .value) ∧ sorting.tracker.ring[2 + 0 + 1]? = some rec47 ∧ rec47.phase ≠ .held
    ∧ sorting.station .recheck = none := by decide +kernel

/-- seq 47 has just left the offset of outlet 0. -/
theorem meets_PassesStrandAndRelease : sorting.outletEntry 0 = some (outletAt 4 .pulse 3 false)
    ∧ (put 5 rec47 sorting).tracker.ring[4 + 1]? = some rec47 ∧ rec47.phase = .decided
    ∧ rec47.target.map Route.outlet = some 0 ∧ sorting.tracker.ring[4 + 1]? = some (mkRec 45 .gone true)
    ∧ sorting.outletEntry 1 = some (outletAt 3 .gated 0 false) ∧ sorting.tracker.ring[3 + 1]? = some rec46
    ∧ rec46.phase ≠ .decided := by decide +kernel

/-- seq 47 has just moved to the offset of outlet 0, whose fire delay is 500 µs. -/
def arrived : State := put 4 rec47 sorting

theorem meets_ArrivalsStartFireDelay :
    (∀ s ∈ [arrived, outletWith 0 { bin0 with state := .full } arrived, outletWith 0 { bin0 with state := .faulted } arrived],
      s.outletEntry 0 = some (outletAt 4 .pulse 3 false) ∧ s.tracker.ring[4]? = some rec47
        ∧ s.outlets[0].drive.claim ≠ some rec47.name ∧ s.firesAllowed = true)
      ∧ rec47.decidedFor 0 = true ∧ (outletAt 4 .pulse 3 false).fireDelay ≠ 0
      ∧ ({ arrived with tables := { arrived.tables with active := some { tableSet with
          outlets := tableSet.outlets.set 0 (some { outletAt 4 .pulse 3 false with fireDelay := 0 }) } } } : State).outletEntry 0
        = some { outletAt 4 .pulse 3 false with fireDelay := 0 }
      ∧ (∀ phase ∈ [Phase.void, .stranded], sorting.outletEntry 15 = some (outletAt 5 .pulse 0 true)
        ∧ (put 5 (mkRec 45 phase false) sorting).tracker.ring[5]? = some (mkRec 45 phase false))
      ∧ halted.firesAllowed = false ∧ sorting.tracker.ring[4]? = some rec46 ∧ rec46.decidedFor 0 = false := by decide +kernel

/-- Both forms of a reverse index: an empty stack, and a stack with a record. A DECIDED record leaves offset 0. -/
theorem meets_ReverseIndexMovesRingDown : sorting.held = false ∧ sorting.lotOpen = true
    ∧ sorting.tracker.ring.length = sorting.z + 1 ∧ sorting.tracker.loadPocket = some 3 ∧ sorting.tracker.stack = []
    ∧ ({ sorting with tracker := { sorting.tracker with stack := [mkRec 43 .gone true] } } : State).tracker.stack
      = mkRec 43 .gone true :: []
    ∧ (put 0 rec47 sorting).tracker.ring[0]? = some rec47 ∧ sorting.tracker.checkTimer = none := by decide +kernel

/-- Everything has run out, and all entries are gone; the lot is in this stage of clearance. -/
def settledIn (stage : Stage) (s : State) : State :=
  supWith (fun u => { u with clearance := some { stage := stage, kind := .ran, count := 13 } }) s

/-- RUN_OUT below and at its bound; complete with an entry left, and settled; each stage in CLEARING with a place, without one
and in HALTED; without clearance. -/
theorem meets_ClearanceCountsAndAdvances :
    clearing.sup.clearance = some { stage := .runOut, kind := .ran, count := 0 } ∧ clearing.runOutComplete = false
      ∧ (settledIn .runOut clearing).sup.clearance = some { stage := .runOut, kind := .ran, count := 13 }
      ∧ (settledIn .runOut clearing).runOutComplete = false ∧ (13 : Int) + 1 = 2 * ((clearing.z : Int) + 1)
      ∧ sorting.sup.clearance = none ∧ sorting.stage ≠ some .runOut
      ∧ (∀ stage ∈ [Stage.runOut, .settle, .summary],
        (settledIn stage finishing).runOutComplete = true ∧ (settledIn stage finishing).settleComplete = true
          ∧ (settledIn stage finishing).sup.engine = .clearing ∧ (settledIn stage finishing).ltx.outbound.length < 32
          ∧ 32 ≤ (outboxed 32 sending (settledIn stage finishing)).ltx.outbound.length
          ∧ (settledIn stage (outletWith 0 bin0 finishing)).runOutComplete = true
          ∧ (settledIn stage (outletWith 0 bin0 finishing)).settleComplete = false
          ∧ (settledIn stage { finishing with sup := halted.sup }).sup.engine ≠ .clearing) := by decide +kernel

/-- A check delay runs; the record at Z is in each phase that the samples tell apart. -/
def sampled (r : PocketRecord) : State :=
  put 6 r { sorting with tracker := { sorting.tracker with checkTimer := some 100100 } }

/-- CancelledSampleIsUnchecked and both sample statements: every phase at Z under a check delay; and a FIRING record whose entry
is the head entry of outlet 0, with its miss run below the limit and one short of it. -/
theorem meets_CheckSampleStatements : (∀ phase ∈ [Phase.open, .void, .empty, .gone, .lost, .firing, .held, .decided, .stranded,
      .retained],
    (sampled (mkRec 44 phase true)).held = false ∧ (sampled (mkRec 44 phase true)).lotOpen = true
      ∧ (sampled (mkRec 44 phase true)).tracker.checkTimer = some 100100
      ∧ (sampled (mkRec 44 phase true)).tracker.ring[(sampled (mkRec 44 phase true)).z]? = some (mkRec 44 phase true))
    ∧ (sampled rec46).tracker.ring[6]? = some rec46 ∧ rec46.phase = .firing
    ∧ (sampled rec46).entryOutlet rec46.name = some 0 ∧ (sampled rec46).outlets[0].slot = .free
    ∧ ¬ 3 ≤ min ((sampled rec46).outlets[0].missRun + 1) 15 ∧ 3 ≤ min (2 + 1) 15 := by
  decide +kernel

/-- The third miss in a row faults outlet 0, with its slot holding seq 47. -/
theorem meets_MissTaken : (outletWith 0 { bin0 with missRun := 2, slot := .delay (.numbered 47) 100500 } sorting).missFaults 0
    ∧ ¬ (sampled rec46).missFaults 0 ∧ sorting.ringOffset (.numbered 47) = some 3 ∧ sorting.tracker.ring[3]? = some rec47
    ∧ rec47.target.map Route.outlet = some 0 := by
  refine ⟨⟨outletAt 4 .pulse 3 false, rfl, by decide, by decide⟩, ?_, by decide +kernel, by decide +kernel, rfl⟩
  rintro ⟨cfg, h, -, limit⟩
  obtain rfl : outletAt 4 .pulse 3 false = cfg := Option.some.inj h
  exact absurd limit (by decide)

/-- A DECIDED record of outlet 0, and a VOID one that the sweep outlet is about to fire for. -/
theorem meets_FireDelayBeginsFire_pulse :
    (delayed.held = false ∧ delayed.firesAllowed = true ∧ delayed.outlets[0].slot = .delay (.numbered 47) 100500
      ∧ delayed.outlets[0].drive = .quiet ∧ delayed.outlets[0].queue.length < 4
      ∧ delayed.outletEntry 0 = some (outletAt 4 .pulse 3 false) ∧ delayed.ringOffset (.numbered 47) = some 3
      ∧ delayed.tracker.ring[3]? = some rec47 ∧ rec47.phase = .decided ∧ rec47.target = some ⟨0, 0⟩)
    ∧ ∀ phase ∈ [Phase.void, .stranded],
      let s := outletWith 15 { openOutlet 6 6 0 with slot := .delay (.numbered 45) 100500 } (put 5 (mkRec 45 phase false) sorting)
      s.outlets[15].slot = .delay (.numbered 45) 100500 ∧ s.outlets[15].drive = .quiet ∧ s.outlets[15].queue.length < 4
        ∧ s.outletEntry 15 = some (outletAt 5 .pulse 0 true) ∧ s.ringOffset (.numbered 45) = some 5
        ∧ s.tracker.ring[5]? = some (mkRec 45 phase false) := by decide +kernel

theorem meets_FireDelayBeginsFire_strobe :
    let s := outletWith 1 { openOutlet 0 0 1 with slot := .delay (.numbered 47) 100500 }
      (put 3 { rec47 with target := some ⟨1, 0⟩ } sorting)
    s.held = false ∧ s.firesAllowed = true ∧ s.outlets[1].slot = .delay (.numbered 47) 100500
      ∧ s.outlets[1].drive = .quiet ∧ s.outlets[1].queue.length < 4 ∧ s.outletEntry 1 = some (outletAt 3 .gated 0 false)
      ∧ s.ringOffset (.numbered 47) = some 3 ∧ s.tracker.ring[3]? = some { rec47 with target := some ⟨1, 0⟩ } := by
  decide +kernel

theorem meets_FireDelayBacklogAndDue :
    (let s := outletWith 0 { bin0 with slot := .delay (.numbered 47) 100500, queue := List.replicate 3 entry46,
                                       drive := .pulse 100600 } sorting
     s.outlets[0].queue.length < 4 ∧ s.outlets[0].drive ≠ .quiet)
    ∧ (let s := outletWith 0 { bin0 with slot := .delay (.numbered 47) 100500, queue := List.replicate 4 entry46 } sorting
       4 ≤ s.outlets[0].queue.length ∧ s.outlets[0].slot = .delay (.numbered 47) 100500
        ∧ s.ringOffset (.numbered 47) = some 3 ∧ s.tracker.ring[3]? = some rec47 ∧ rec47.phase = .decided) := by
  decide +kernel

theorem meets_PulseEndQuietsDrive :
    (outletWith 0 { bin0 with drive := .pulse 100700 } sorting).outlets[0].slot = .free
      ∧ (outletWith 0 { bin0 with drive := .pulse 100700, slot := .due (.numbered 47) } sorting).outlets[0].slot
        = .due (.numbered 47)
      ∧ (outletWith 0 { bin0 with drive := .pulse 100700, slot := .due (.numbered 47) } sorting).firesAllowed = true := by
  decide +kernel

/-- The claim stands, or has been withdrawn; a DUE slot in SORTING, and in HALTED. -/
theorem meets_AckRecordsFire : struck.held = false ∧ struck.lotOpen = true ∧ struck.outlets[1].state ≠ .disabled
    ∧ struck.outlets[1].slot = .free ∧ struck.outlets[1].drive = .strobe 101000 (some (.numbered 47))
    ∧ struck.ringOffset (.numbered 47) = some 3
    ∧ struck.tracker.ring[3]? = some { rec47 with target := some ⟨1, 0⟩ }
    ∧ (outletWith 1 { openOutlet 0 0 1 with drive := .strobe 101000 none } struck).outlets[1].drive = .strobe 101000 none
    ∧ struckDue.outlets[1].drive = .strobe 101000 (some (.numbered 47)) ∧ struckDue.ringOffset (.numbered 47) = some 3
    ∧ struckDue.outlets[1].slot = .due (.numbered 49) ∧ struckDue.firesAllowed = true
    ∧ ({ struckDue with sup := halted.sup } : State).firesAllowed = false
    ∧ ({ struckDue with sup := halted.sup } : State).lotOpen = true := by decide +kernel

/-- The claim alone; the claim and the slot of another record; both of one record; an outlet that is FAULTED. -/
theorem meets_AckLimitFaultsOutlet : struck.held = false
    ∧ struck.outlets[1].drive = .strobe 101000 (some (.numbered 47)) ∧ struck.outlets[1].slot = .free
    ∧ struck.outlets[1].state ≠ .faulted ∧ struck.heldFor (some (.numbered 47)) 1 = 1 ∧ struck.heldFor none 1 = 0
    ∧ struckDue.outlets[1].drive = .strobe 101000 (some (.numbered 47))
    ∧ struckDue.outlets[1].slot.name = some (.numbered 49) ∧ struckDue.ringOffset (.numbered 49) = some 1
    ∧ struckDue.heldFor (some (.numbered 47)) 1 = 1 ∧ struckDue.heldFor (some (.numbered 49)) 1 = 1
    ∧ (outletWith 1 { openOutlet 0 0 1 with
        drive := .strobe 101000 (some (.numbered 47)), slot := .due (.numbered 47) } struck).outlets[1].slot.name
      = some (.numbered 47)
    ∧ (outletWith 1 { openOutlet 0 0 1 with state := .faulted, drive := .strobe 101000 none } struck).outlets[1].state
      = .faulted := by decide +kernel

/-- The flight time is the flight min itself; outlet 0 is one below its capacity in the second state, and the sweep outlet one
below, at and far over its capacity; the record stands in the ring, in the stack and nowhere. -/
theorem meets_DropConfirmsHeadEntry :
    (sorting.held = false ∧ sorting.lotOpen = true ∧ sorting.outlets[0].state ≠ .disabled
      ∧ sorting.outletEntry 0 = some (outletAt 4 .pulse 3 false) ∧ sorting.outlets[0].queue = entry46 :: []
      ∧ (outletAt 4 .pulse 3 false).flightMin ≤ max 99100 99100 - entry46.fireTime
      ∧ sorting.firingPlace (.numbered 46) = some (.ring 4))
    ∧ (outletWith 0 { bin0 with committed := 999 } sorting).outlets[0].committed + 1 = (outletAt 4 .pulse 3 false).capacity
    ∧ (∀ committed ∈ [999, 1000, 65535],
       let s := outletWith 15 { openOutlet committed 6 1 with queue := [entry46] } sorting
       s.outlets[15].queue = entry46 :: [] ∧ s.outletEntry 15 = some (outletAt 5 .pulse 0 true)
        ∧ (outletAt 5 .pulse 0 true).capacity ≤ min (s.outlets[15].committed + 1) 65535)
    ∧ ({ put 4 (mkRec 43 .gone true) sorting with tracker := { (put 4 (mkRec 43 .gone true) sorting).tracker with
        stack := [rec46] } } : State).firingPlace (.numbered 46) = some (.stack 0)
    ∧ (put 4 (mkRec 46 .gone true) sorting).firingPlace (.numbered 46) = none := by decide +kernel

theorem meets_DropWithoutEntryIsStray : ready.lotOpen = false ∧ sorting.outlets[2].state = .disabled
    ∧ sorting.outlets[1].queue = [] ∧ sorting.outletEntry 1 = some (outletAt 3 .gated 0 false)
    ∧ max 99099 99099 - entry46.fireTime < (outletAt 4 .pulse 3 false).flightMin := by decide +kernel

theorem meets_FlightMaxIsMiss : sorting.outletEntry 0 = some (outletAt 4 .pulse 3 false)
    ∧ sorting.outlets[0].queue = entry46 :: [] ∧ sorting.outlets[0].slot = .free
    ∧ sorting.tracker.ring[4]? = some rec46 ∧ rec46.checked = false
    ∧ (put 4 { rec46 with checked := true } sorting).firingPlace (.numbered 46) = some (.ring 4)
    ∧ (put 4 (mkRec 46 .gone true) sorting).firingPlace (.numbered 46) = none
    ∧ (let s : State := { put 4 (mkRec 43 .gone true) sorting with
        tracker := { (put 4 (mkRec 43 .gone true) sorting).tracker with stack := [rec46] } }
       s.firingPlace (.numbered 46) = some (.stack 0) ∧ s.tracker.stack[0]? = some rec46)
    ∧ (outletAt 4 .pulse 3 false).missLimit ≤ min (2 + 1) 15 := by decide +kernel

theorem meets_DropKeepsBalance : sorting.outlets[0].lotTotal < 4294967295
    ∧ sorting.sup.present = sorting.accounted := by decide +kernel

/-- Outlets 0 and 1 overflow to each other, outlet 0 being FULL. -/
def overflowing (state1 : OutletState) : State :=
  { outletWith 1 { openOutlet 0 0 0 with state := state1 } (outletWith 0 { bin0 with state := .full } sorting) with
    tables := { sorting.tables with active := some { tableSet with
      outlets := (tableSet.outlets.set 0 (some { outletAt 4 .pulse 3 false with overflow := some 1 })).set 1
        (some { outletAt 3 .gated 0 false with overflow := some 0 }) } } }

/-- At offset 2 the candidate at hop 1 takes the record; when it is FULL too, the chain comes back until hop 4. -/
theorem meets_RoutingTakesFirstUsableCandidate :
    (overflowing .open).candidate 0 1 = some 1 ∧ (overflowing .open).usable 2 1 = true
      ∧ (overflowing .open).candidate 0 0 = some 0 ∧ (overflowing .open).usable 2 0 = false
      ∧ (∀ i ∈ [0, 1, 2, 3, 4], ((overflowing .full).candidate 0 i).all (fun c => !(overflowing .full).usable 2 c) = true)
      ∧ (overflowing .full).candidate 0 4 = some 0 := by decide +kernel

/-! MEAS: a frame for the record at an offset, in a window or outside it. -/

theorem measAt_of {s : State} {payload : List Byte} {k : Nat} {r : PocketRecord} {m : Meas} (e : StationEntry)
    (held : s.held = false) (lot : s.lotOpen = true) (reads : Meas.ofPayload payload = some m)
    (entry : s.station m.station = some e) (place : s.place e m.pocket = .placed k)
    (belongs : m.status.belongsTo m.station = true) (record : s.tracker.ring[k]? = some r) :
    MeasAt (inbox 1 payload s) (frameOf 1 payload) [] k r m :=
  { serves := ⟨held, rfl, rfl, rfl⟩, lot := lot, payload := reads, station := ⟨e, entry, place⟩, belongs := belongs,
    record := record }

def contactAt (r : PocketRecord) : State := put 1 r sorting

def valueAt (s : State) : State := put 2 rec49 s

/-- With station 2 enabled at offset 3, a class found at VALUE is provisional and a RECHECK result decides. -/
def rechecking : State :=
  { sorting with tables := { sorting.tables with active := some { tableSet with
      stations := tableSet.stations.set 2 (some (stationAt 3 0)) } } }

/-- Without a lot; of a wrong LEN; of station 2, which is not enabled; with the status PART at the VALUE station. -/
theorem meets_MeasIsDiscarded_frames : Serves (inbox 1 [] ready) .meas (frameOf 1 []) [] ∧ ready.lotOpen = false
    ∧ (∀ payload ∈ [[(1 : Byte), 1], [2, 1, 4], [1, 1, 0]], Serves (inbox 1 payload sorting) .meas (frameOf 1 payload) [])
    ∧ sorting.lotOpen = true ∧ Meas.ofPayload [1, 1] = none ∧ sorting.station .recheck = none
    ∧ Meas.ofPayload [2, 1, 4] = some { station := .recheck, pocket := 1, status := .overHigh, value := none }
    ∧ Meas.ofPayload [1, 1, 0] = some { station := .value, pocket := 1, status := .part, value := none }
    ∧ Status.part.belongsTo .value = false :=
  ⟨⟨rfl, rfl, rfl, rfl⟩, by decide +kernel, fun _ _ => ⟨rfl, rfl, rfl, rfl⟩, by decide +kernel⟩

/-- Pocket 3 stands at offset 0, before the window of station 1 at 2, pocket 0 at offset 3 after it, pocket 4 at offset 7,
above Z, and pocket 8 is no pocket. -/
theorem meets_MeasIsDiscarded_places :
    (∀ p ∈ [(3 : Byte), 0, 4, 8], Meas.ofPayload ([1, p, 4]) = some { station := .value, pocket := p.toNat, status := .overHigh, value := none })
      ∧ sorting.station .value = some (stationAt 2 0) ∧ sorting.tracker.loadPocket = some 3 ∧ sorting.dial.pockets = 8
      ∧ [0, 3, 7] = ([3, 0, 4] : List Int).map (fun p => (((3 : Int) - p) % 8).toNat)
      ∧ (0 : Nat) < 2 ∧ (2 : Nat) + 0 < 3 ∧ 3 ≤ sorting.z ∧ sorting.z < 7 ∧ Status.overHigh.belongsTo .value = true := by
  decide +kernel

/-- A result of the same station; a VALUE result, and a CONTACT result, for a record in any phase; a RECHECK result before the
VALUE result. -/
theorem meets_MeasIsDiscarded_records :
    (MeasAt (inbox 1 [0, 2, 0] (contactAt rec49)) (frameOf 1 [0, 2, 0]) [] 1 rec49
        { station := .contact, pocket := 2, status := .part, value := none } ∧ ∃ x ∈ rec49.results, x.station = .contact)
      ∧ (∀ phase, MeasAt (inbox 1 [1, 1, 6] (put 2 (mkRec 48 phase false) sorting)) (frameOf 1 [1, 1, 6]) [] 2
          (mkRec 48 phase false) { station := .value, pocket := 1, status := .meterError, value := none })
      ∧ (∀ phase, MeasAt (inbox 1 [0, 2, 0] (contactAt (mkRec 49 phase false))) (frameOf 1 [0, 2, 0]) [] 1
          (mkRec 49 phase false) { station := .contact, pocket := 2, status := .part, value := none })
      ∧ (MeasAt (inbox 1 [2, 0, 5] (put 3 rec49 rechecking)) (frameOf 1 [2, 0, 5]) [] 3 rec49
          { station := .recheck, pocket := 0, status := .overLow, value := none }
        ∧ rec49.phase = .held ∧ ∀ x ∈ rec49.results, x.station ≠ .recheck ∧ x.station ≠ .value) :=
  ⟨⟨measAt_of (stationAt 1 0) rfl rfl rfl rfl rfl rfl rfl, part, by decide +kernel, rfl⟩,
    fun _ => measAt_of (stationAt 2 0) rfl rfl rfl rfl rfl rfl rfl,
    fun _ => measAt_of (stationAt 1 0) rfl rfl rfl rfl rfl rfl rfl,
    measAt_of (stationAt 3 0) rfl rfl rfl rfl rfl rfl rfl, rfl, by decide +kernel⟩

theorem meets_ContactResultApplies : ∀ x ∈ [(Phase.open, (0 : Byte), Status.part), (.open, 1, .noPart), (.open, 2, .contactFail),
      (.void, 0, .part), (.void, 1, .noPart), (.void, 2, .contactFail)],
    MeasAt (inbox 1 [0, 2, x.2.1] (contactAt (mkRec 49 x.1 false))) (frameOf 1 [0, 2, x.2.1]) [] 1 (mkRec 49 x.1 false)
      { station := .contact, pocket := 2, status := x.2.2, value := none } ∧ (mkRec 49 x.1 false).hasResult .contact = false := by
  intro x hx
  simp only [List.mem_cons, List.not_mem_nil, or_false] at hx
  rcases hx with rfl | rfl | rfl | rfl | rfl | rfl <;>
    exact ⟨measAt_of (stationAt 1 0) rfl rfl rfl rfl rfl rfl rfl, rfl⟩

theorem classes_end_at_1000 : ∀ c : Fin 32, (tableSet.classes[c]).all (fun e => e.hi == 1000) = true := by decide +kernel

/-- Class 0 ends at 1000, and no other class is present. -/
theorem no_class_1001 : ∀ c, ¬ (valueAt sorting).classContains 1001 c := by
  rintro c ⟨t, e, ht, he, -, -, hi⟩
  have only : ∀ c : Fin 32, ∀ e, tableSet.classes[c] = some e → e.hi = 1000 := by
    intro c e h
    have := classes_end_at_1000 c
    rw [h] at this
    simpa using this
  obtain rfl : tableSet = t := Option.some.inj ht
  rw [only c e he] at hi
  exact absurd hi (by decide)

theorem meets_ValueResultApplies :
    MeasAt (inbox 1 [1, 1, 3, 0, 0x27, 0x10, 0] (valueAt sorting)) (frameOf 1 [1, 1, 3, 0, 0x27, 0x10, 0]) [] 2 rec49
        { station := .value, pocket := 1, status := .ok, value := some (10000, 0) }
      ∧ MeasAt (inbox 1 [1, 1, 6] (valueAt sorting)) (frameOf 1 [1, 1, 6]) [] 2 rec49
        { station := .value, pocket := 1, status := .meterError, value := none }
      ∧ rec49.phase = .held ∧ rec49.hasResult .value = false ∧ (valueAt sorting).lotEntry = tableSet.lot
      ∧ (valueAt sorting).firstClass (-1000) 0 ∧ (valueAt sorting).firstClass 1000 0
      ∧ (∀ c, ¬ (valueAt sorting).classContains 1001 c) ∧ (valueAt sorting).station .recheck = none :=
  ⟨measAt_of (stationAt 2 0) rfl rfl rfl rfl rfl rfl rfl,
    measAt_of (stationAt 2 0) rfl rfl rfl rfl rfl rfl rfl,
    rfl, rfl, rfl, ⟨⟨tableSet, _, rfl, rfl, rfl, by decide, by decide⟩, fun c' h => absurd h (Fin.not_lt_zero c')⟩,
    ⟨⟨tableSet, _, rfl, rfl, rfl, by decide, by decide⟩, fun c' h => absurd h (Fin.not_lt_zero c')⟩, no_class_1001, rfl⟩

def provisional0 : PocketRecord :=
  { mkRec 47 .held true with
    results := [part, { station := .value, status := .ok, value := some (100005, -1) }]
    provisional := some 0 }

theorem meets_RecheckResultApplies :
    MeasAt (inbox 1 [2, 0, 3, 0x01, 0x86, 0xBE, 0xFF] (put 3 provisional0 rechecking))
        (frameOf 1 [2, 0, 3, 0x01, 0x86, 0xBE, 0xFF]) [] 3 provisional0
        { station := .recheck, pocket := 0, status := .ok, value := some (100030, -1) }
      ∧ MeasAt (inbox 1 [2, 0, 5] (put 3 provisional0 rechecking)) (frameOf 1 [2, 0, 5]) [] 3 provisional0
        { station := .recheck, pocket := 0, status := .overLow, value := none }
      ∧ (rechecking.station .recheck).isSome = true ∧ provisional0.hasResult .recheck = false
      ∧ provisional0.results.find? (fun x => x.station == .value)
        = some { station := .value, status := .ok, value := some (100005, -1) }
      ∧ min 999999 (1000000 * ((milliohms (100030, -1) : Int) - (milliohms (100005, -1) : Int)).natAbs
          / milliohms (100005, -1)) = 249 :=
  ⟨measAt_of (stationAt 3 0) rfl rfl rfl rfl rfl rfl rfl,
    measAt_of (stationAt 3 0) rfl rfl rfl rfl rfl rfl rfl,
    rfl, by decide +kernel, by decide +kernel, by decide +kernel⟩

/-! Requests: a frame of the KIND at the head, the reply's place free. -/

theorem serves_of {s : State} {kind : Byte} {payload : List Byte} {k : RequestKind} (held : s.held = false)
    (isKind : RequestKind.ofByte kind = some k) (ready : headServed (frameOf kind payload) (inbox kind payload s) = true) :
    Serves (inbox kind payload s) k (frameOf kind payload) [] := ⟨held, rfl, isKind, ready⟩

/-- A lot is clearing; the seq is the last one, one past it or absent; a lot id is absent; a slot names a record; outlet 2 has
no entry, and an engine without tables none at all. -/
theorem meets_QueryStatements : Serves (inbox 0x10 [] sorting) .statusQuery (frameOf 0x10 []) []
    ∧ (∀ x ∈ [((2 : Byte), (0 : Byte)), (0, 6), (0, 7), (1, 0), (1, 1)],
      Serves (inbox 0x11 [x.1, x.2] sorting) .pocketQuery (frameOf 0x11 [x.1, x.2]) [])
    ∧ sorting.tracker.ring[6]? = some (mkRec 44 .gone true) ∧ sorting.tracker.ring.length ≤ 7
    ∧ Serves (inbox 0x12 [16] sorting) .outletQuery (frameOf 0x12 [16]) []
    ∧ Serves (inbox 0x12 [15] (outboxed 31 sending sorting)) .outletQuery (frameOf 0x12 [15]) []
    ∧ Serves (inbox 0x10 [] quiet) .statusQuery (frameOf 0x10 []) [] ∧ Serves (inbox 0x12 [2] quiet) .outletQuery (frameOf 0x12 [2]) []
    ∧ clearing.sup.clearance = some { stage := .runOut, kind := .ran, count := 0 }
    ∧ ({ sorting with tracker := { sorting.tracker with nextSeq := some 4294967295 } } : State).tracker.nextSeq
      = some 4294967295
    ∧ sorting.sup.lotId = some 5 ∧ sorting.lrx.nodeAddress = some 0 ∧ sorting.tables.active = some tableSet
    ∧ tableSet.outlets[15] = some (outletAt 5 .pulse 0 true) ∧ delayed.outlets[0].slot.name = some (.numbered 47)
    ∧ sorting.outlets[0].slot.name = none
    ∧ ({ sorting with tracker := { sorting.tracker with nextSeq := some 4294967296 } } : State).tracker.nextSeq
      = some 4294967296
    ∧ quiet.tracker.nextSeq = none ∧ quiet.sup.lotId = none ∧ tableSet.outlets[2] = none ∧ quiet.tables.active = none :=
  ⟨serves_of rfl rfl rfl, fun _ _ => serves_of rfl rfl rfl, by decide +kernel, by decide +kernel, serves_of rfl rfl rfl,
    serves_of rfl rfl (by decide +kernel), serves_of rfl rfl rfl, serves_of rfl rfl rfl, by decide +kernel⟩

/-- The LINK entry's LEN is 6 and its table has one entry; hold_on 17 is out of its range. -/
theorem meets_TableWriteStoresOrRefuses : Serves (inbox 0x20 [6, 0, 12, 4, 0, 50] ready) .tableWrite
      (frameOf 0x20 [6, 0, 12, 4, 0, 50]) []
    ∧ TableKind.ofByte 6 = some .link ∧ [(12 : Byte), 4, 0, 50].length + 2 = TableKind.link.writeLen
    ∧ firstBad 3 (TableKind.link.rangeTests [16, 0, 0, 10]) = none ∧ TableKind.link.entries ≤ 1
    ∧ firstBad 3 (TableKind.link.rangeTests [17, 4, 0, 50]) = some 3 ∧ [(12 : Byte), 4, 0].length + 2 ≠ TableKind.link.writeLen :=
  ⟨serves_of rfl rfl rfl, by decide +kernel⟩

theorem meets_TableReadIsAnswered : Serves (inbox 0x21 [0, 6, 0] ready) .tableRead (frameOf 0x21 [0, 6, 0]) []
    ∧ TableKind.ofByte 6 = some .link ∧ quiet.tables.active = none ∧ ready.tables.active = some tableSet
    ∧ tableSet.read .link 0 = some [12, 4, 0, 50] ∧ tableSet.read .station 2 = none := by
  refine ⟨serves_of rfl rfl rfl, ?_⟩
  decide +kernel

theorem meets_TableDiscardRestoresStaging : Serves (inbox 0x22 [] ready) .tableDiscard (frameOf 0x22 []) []
    ∧ Serves (inbox 0x22 [0] ready) .tableDiscard (frameOf 0x22 [0]) [] := ⟨serves_of rfl rfl rfl, serves_of rfl rfl rfl⟩

theorem meets_TableCommitActivatesOrRefuses : Serves (inbox 0x23 [0xFF, 0xFF] staged) .tableCommit (frameOf 0x23 [0xFF, 0xFF]) []
    ∧ staged.lotOpen = false ∧ [0xFF, 0xFF] = bytesOf 2 staged.tables.check.toNat ∧ staged.tables.staged.invalid = none
    ∧ sorting.lotOpen = true ∧ [0xFF, 0xFE] ≠ bytesOf 2 staged.tables.check.toNat
    ∧ quiet.tables.staged.invalid = some (1, none) ∧ staged.outletEntry 0 = none
    ∧ tableSet.outlet 0 = some (outletAt 4 .pulse 3 false) ∧ ready.outletEntry 0 = some (outletAt 4 .pulse 3 false)
    ∧ TableSet.absent.outlet 0 = none ∧ tableSet.outlet 2 = none ∧ ready.outletEntry 2 = none := by
  refine ⟨serves_of rfl rfl rfl, ?_⟩
  decide +kernel

/-- The load pocket is the last one, 7; and 8, which is refused; a lot is open; JAM is active. -/
theorem meets_LotStartOpensLot : (∀ p s, s ∈ [ready, sorting, { ready with jam := true }] →
      Serves (inbox 0x30 (bytesOf 4 9 ++ bytesOf 1 p) s) .lotStart (frameOf 0x30 (bytesOf 4 9 ++ bytesOf 1 p)) [])
    ∧ ready.sup.engine = .ready ∧ 7 < ready.dial.pockets ∧ ready.dial.pockets ≤ 8 ∧ ready.jam = false
    ∧ sorting.sup.engine ≠ .ready := by
  refine ⟨fun p s hs => ?_, by decide +kernel⟩
  simp only [List.mem_cons, List.not_mem_nil, or_false] at hs
  rcases hs with rfl | rfl | rfl <;> exact serves_of rfl rfl rfl

/-- A lot under the abandon option: records of every row of R152 from OPEN at offset 0 to a FIRING one at 4. -/
def abandoning : State :=
  put 2 (mkRec 48 .stranded false) (put 5 (mkRec 45 .retained false) (put 6 (mkRec 44 .retained true)
    { sorting with tables := { sorting.tables with active := some { tableSet with
        lot := tableSet.lot.map fun e => { e with abandon := true } } } }))

/-- The HELD, the DECIDED and the counted RETAINED part are booked, and the DECIDED one's reservation is released (R152). -/
theorem test_lot_end_abandons : (after .lotEnd (inbox 0x31 [] abandoning)).tracker.ring.map PocketRecord.phase
      = [.void, .lost, .void, .lost, .firing, .lost, .lost]
    ∧ (after .lotEnd (inbox 0x31 [] abandoning)).outlets[0].reserved = 1
    ∧ (after .lotEnd (inbox 0x31 [] abandoning)).sup.unaccounted = 3
    ∧ abandoning.ringReports.map SortReport.seq = [some 49, some 47, some 44] := by decide +kernel

theorem meets_LotEndBeginsClearance : (∀ s ∈ [sorting, halted, clearing, ready],
      Serves (inbox 0x31 [] s) .lotEnd (frameOf 0x31 []) [])
    ∧ sorting.sup.engine = .sorting ∧ halted.sup.engine = .halted ∧ halted.sup.returnState = some .sorting
    ∧ sorting.lotEntry.any LotEntry.abandon = false
    ∧ abandoning.lotEntry.any LotEntry.abandon = true ∧ abandoning.sup.engine = .sorting
    ∧ Serves (inbox 0x31 [] abandoning) .lotEnd (frameOf 0x31 []) [] := by
  refine ⟨?_, by decide +kernel, by decide +kernel, by decide +kernel, by decide +kernel, by decide +kernel, by decide +kernel,
    serves_of rfl rfl rfl⟩
  intro s hs
  simp only [List.mem_cons, List.not_mem_nil, or_false] at hs
  rcases hs with rfl | rfl | rfl | rfl <;> exact serves_of rfl rfl rfl

/-- The standing records' reports come first, then the entries'; reply and summary follow them (R130). -/
theorem test_lot_abort_reports : (after .lotAbort (inbox 0x32 [] sorting)).ltx.outbound.map (fun f => f.body.kind)
      = [0x82, 0x82, 0x82, 0x80, 0x83, 0x81]
    ∧ (sorting.ringReports ++ sorting.entryReports).map SortReport.seq = [some 49, some 47, some 46] := by decide +kernel

/-- LOT_ABORT needs two places: it is served at an occupancy of 30. The names are told apart. -/
theorem meets_LotAbortClosesLot : Serves (inbox 0x32 [] (outboxed 30 sending sorting)) .lotAbort (frameOf 0x32 []) []
    ∧ headServed (frameOf 0x32 []) (outboxed 31 sending sorting) = false ∧ sorting.lotOpen = true
    ∧ NameLaw (inbox 0x32 [] (outboxed 30 sending sorting)) :=
  ⟨serves_of rfl rfl (by decide +kernel), by decide +kernel, by decide +kernel,
    ⟨dropping_names.records, dropping_names.entries, dropping_names.issued, dropping_names.entryIssued,
      dropping_names.entryRecord, dropping_names.firingEntry⟩⟩

theorem meets_OutletResetEmptiesBin : (∀ b ∈ [(0 : Byte), 2, 16], Serves (inbox 0x33 [b] sorting) .outletReset (frameOf 0x33 [b]) [])
    ∧ sorting.outlets[0].state ≠ .disabled ∧ sorting.outlets[2].state = .disabled :=
  ⟨fun _ _ => serves_of rfl rfl rfl, by decide +kernel⟩

/-- A SUMMARY stage waits in HALTED, with 30 frames queued and with 31. -/
def haltedSummary : State :=
  supWith (fun u => { u with
    engine := .halted, returnState := some .clearing, clearance := some { stage := .summary, kind := .ran, count := 9 } }) halted

theorem meets_ClearFaultResumes : (∀ s ∈ [halted, { halted with jam := true }, sorting, outboxed 30 sending haltedSummary,
      outboxed 31 sending haltedSummary], Serves (inbox 0x34 [] s) .clearFault (frameOf 0x34 []) [])
    ∧ halted.sup.engine = .halted ∧ halted.jam = false ∧ halted.sup.returnState = some .sorting
    ∧ halted.stage ≠ some .summary ∧ sorting.sup.engine ≠ .halted ∧ haltedSummary.sup.engine = .halted
    ∧ haltedSummary.jam = false ∧ haltedSummary.sup.returnState = some .clearing
    ∧ haltedSummary.sup.clearance = some { stage := .summary, kind := .ran, count := 9 }
    ∧ (outboxed 30 sending haltedSummary).ltx.outbound.length ≤ 30
    ∧ (outboxed 31 sending haltedSummary).ltx.outbound.length = 31 := by
  refine ⟨fun s hs => ?_, by decide +kernel⟩
  simp only [List.mem_cons, List.not_mem_nil, or_false] at hs
  rcases hs with rfl | rfl | rfl | rfl | rfl
  · exact serves_of rfl rfl rfl
  · exact serves_of rfl rfl rfl
  · exact serves_of rfl rfl rfl
  · exact serves_of rfl rfl (by decide +kernel)
  · exact serves_of rfl rfl (by decide +kernel)

/-- The set of all eleven conditions. -/
theorem meets_NoticeFlagsAndAttnFollow : Serves (inbox 0x40 (bytesOf 2 2047) State.reset) .noticeAck (frameOf 0x40 (bytesOf 2 2047)) []
    ∧ Serves (inbox 0x41 (bytesOf 2 0) State.reset) .noticeMask (frameOf 0x41 (bytesOf 2 0)) [] ∧ 2047 < 2048 :=
  ⟨serves_of rfl rfl rfl, serves_of rfl rfl rfl, by decide⟩

theorem meets_NodeAssignAndUnknownKindAreAnswered_assign : (∀ b ∈ [(3 : Byte), 4], Serves (inbox 0x42 [b]
      { quiet with lrx := { quiet.lrx with nodeAddress := none } }) .nodeAssign (frameOf 0x42 [b]) [])
    ∧ quiet.lrx.nodeAddress = some 0 ∧ Serves (inbox 0x42 [3] quiet) .nodeAssign (frameOf 0x42 [3]) [] :=
  ⟨fun _ _ => serves_of rfl rfl rfl, rfl, serves_of rfl rfl rfl⟩

theorem meets_NodeAssignAndUnknownKindAreAnswered_unknown :
    let s := inbox 0x77 [1] (outboxed 31 sending sorting)
    s.held = false ∧ s.lrx.inbound = frameOf 0x77 [1] :: [] ∧ RequestKind.ofByte 0x77 = none ∧ s.lrx.urgent = []
      ∧ s.ltx.outbound.length ≤ 31 := by decide +kernel

/-! The line -/

/-- The outbound queue is full and a HALT reply, an OUTLET_QUERY, a LOT_ABORT, a SUMMARY stage or an owed notice waits. -/
theorem meets_TransmissionEndFreesPlace :
    (let s := outboxed 32 sending quiet
     s.held = false ∧ s.ltx.txd = .sending 799000 801600 ∧ s.ltx.outbound.length = 32 ∧ s.lrx.inbound = []
      ∧ s.sup.clearance = none ∧ s.lrx.urgent = [] ∧ ∀ i : Fin 11, s.notices[i].owed = false)
    ∧ (urgentWith [haltReply] (outboxed 32 sending quiet)).lrx.urgent = haltReply :: []
    ∧ (inbox 0x12 [0] (outboxed 32 sending sorting)).lrx.inbound = frameOf 0x12 [0] :: []
    ∧ (inbox 0x32 [] (outboxed 32 sending sorting)).lrx.inbound = frameOf 0x32 [] :: []
    ∧ finishing.sup.clearance = some { stage := .summary, kind := .ran, count := 9 } ∧ finishing.sup.engine = .clearing
    ∧ (let s : State := { quiet with notices := quiet.notices.set 9 { NoticeCell.clear with pending := true, owed := true } }
       s.notices[Condition.jam.index].owed = true
        ∧ ∀ c' ∈ Condition.all, c'.index < Condition.jam.index → s.notices[c'.index].owed = false)
    ∧ (after .coreReset (outboxed 2 sending quiet)).ltx.txd = .cut 800040
    ∧ (outboxed 1 (.idle 0) quiet).ltx.txd = .idle 0 := by decide +kernel

/-- With 31 frames queued the MEAS frame's notice stands back for the LOT_ABORT that the serving brings forward (log 32); behind
a MEAS frame it is queued in the event. -/
theorem test_notice_stands_back_for_the_next_head :
    (let s := outboxed 31 sending { ready with lrx := { ready.lrx with inbound := [frameOf 1 [], frameOf 0x32 []] } }
     (after .meas s).ltx.outbound.length = 31 ∧ (after .meas s).notices[5].owed = true)
    ∧ (let s := outboxed 31 sending { ready with lrx := { ready.lrx with inbound := [frameOf 1 [], frameOf 1 []] } }
       (after .meas s).ltx.outbound.length = 32 ∧ (after .meas s).notices[5].owed = false) := by decide +kernel

/-- A waiting producer of each kind; no place; nothing owed; one condition owed with a place. -/
theorem meets_WaitingProducersTakePlaces_events :
    (urgentWith [haltReply] quiet).producerWaits = true ∧ (inbox 0x32 [] (outboxed 31 sending quiet)).producerWaits = true
      ∧ finishing.producerWaits = true ∧ quiet.producerWaits = false ∧ (∀ i : Fin 11, quiet.notices[i].owed = false)
      ∧ 32 ≤ (outboxed 32 sending quiet).ltx.outbound.length
      ∧ (let s : State := { quiet with notices := quiet.notices.set 9 { NoticeCell.clear with pending := true, owed := true } }
         s.producerWaits = false ∧ s.ltx.outbound.length < 32 ∧ s.notices[Condition.jam.index].owed = true
          ∧ ∀ i : Fin 11, i ≠ Condition.jam.index → s.notices[i].owed = false) := by decide +kernel

theorem meets_WaitingProducersTakePlaces_frames :
    (urgentWith [haltReply] (outboxed 31 sending quiet)).lrx.urgent = haltReply :: []
      ∧ (outboxed 31 sending quiet).ltx.outbound.length < 32 ∧ quiet.producerWaits = false
      ∧ (let s : State := { quiet with notices := quiet.notices.set 9 { NoticeCell.clear with pending := true, owed := true } }
         s.notices[Condition.jam.index].owed = true ∧ s.producerWaits = false
          ∧ ∀ c' ∈ Condition.all, c'.index < Condition.jam.index → s.notices[c'.index].owed = false) := by decide +kernel

theorem meets_WaitingProducersTakePlaces_summary : finishing.held = false
    ∧ finishing.sup.clearance = some { stage := .summary, kind := .ran, count := 9 } ∧ finishing.sup.engine = .clearing
    ∧ finishing.ltx.outbound.length < 32 ∧ finishing.settleComplete = true := by decide +kernel

/-- A character that ends before the gap timer's deadline and one character time more began in time. -/
theorem inTime_of {s : State} {time expires : Nat} (h : s.lrx.gapTimer = some expires)
    (before : 8 * max s.now time < 8 * expires + s.rate.charTicks) : s.inTime time := by
  intro e he
  obtain rfl : expires = e := Option.some.inj (h.symm.trans he)
  exact before

/-- The held bytes end with the TAG; with a LEN of 56; and one byte before the last CRC byte. The last instant in time is
100,059 µs. -/
theorem meets_CharactersAreAssembled : quiet.lrx.assembler = .hunt
    ∧ Incomplete ([(0xC3 : Byte), 0, 1] ++ [7]) ∧ Incomplete ([(0xC3 : Byte), 0, 1, 7] ++ [56])
    ∧ Incomplete ([(0xC3 : Byte), 0, 1, 7, 0] ++ [9])
    ∧ (assembling (.frame [0xC3, 0, 1]) quiet).inTime 100059 ∧ ¬ (assembling (.frame [0xC3, 0, 1]) quiet).inTime 100060
    ∧ exec .gapTimer (assembling (.frame [0xC3, 0, 1]) quiet) = .next (after .gapTimer (assembling (.frame [0xC3, 0, 1]) quiet)) :=
  ⟨rfl, .inl (by decide), .inr (by decide), .inr (by decide), inTime_of (expires := 100050) rfl (by decide +kernel),
    fun h => absurd (h 100050 rfl) (by decide +kernel), rfl⟩

/-- A STATUS_QUERY to node 0 whose last byte comes, with 15 and with 16 frames waiting. -/
theorem meets_GoodFrameJoinsInboundQueue :
    quiet.lrx.nodeAddress = some 0 ∧ statusFrame ++ [statusLast] = frameBytes 0 0x10 0x07 []
      ∧ (assembling (.frame statusFrame) quiet).inTime 100059 ∧ (0 : Byte) = BitVec.ofNat 8 (0 : Fin 4).val
      ∧ (setInbound (List.replicate 15 (frameOf 0x10 [])) quiet).lrx.inbound.length < 16
      ∧ 16 ≤ (setInbound (List.replicate 16 (frameOf 0x10 [])) quiet).lrx.inbound.length :=
  ⟨rfl, by decide +kernel, inTime_of (expires := 100050) rfl (by decide +kernel), by decide +kernel⟩

/-- The last byte of a frame has just come. -/
def completing (dest kind : Byte) (payload : List Byte) (s : State) : State :=
  after (.frameComplete 100010 ((frameBytes dest kind 7 payload).getLast!))
    (assembling (.frame (frameBytes dest kind 7 payload).dropLast) s)

def unassigned : State := { quiet with lrx := { quiet.lrx with nodeAddress := none } }

/-- Frames to node 1 and to every node, and an urgent frame with a payload. -/
theorem meets_GoodFrameIsActedOnOrSetAside :
    (∀ x ∈ [((1 : Byte), (0x10 : Byte), ([] : List Byte)), (0, 0x50, []), (0xFF, 0x51, []), (0, 0x50, [1]), (0xFF, 1, [])],
      (frameBytes x.1 x.2.1 7 x.2.2).dropLast ++ [(frameBytes x.1 x.2.1 7 x.2.2).getLast!] = frameBytes x.1 x.2.1 7 x.2.2
        ∧ (0xC3 : Byte) ∉ (frameBytes x.1 x.2.1 7 x.2.2).tail)
      ∧ (∀ frame, (assembling (.frame frame) quiet).inTime 100059) ∧ unassigned.lrx.nodeAddress = none
      ∧ (1 : Byte) ≠ BitVec.ofNat 8 (0 : Fin 4).val ∧ (1 : Byte) ≠ 0xFF :=
  ⟨by decide +kernel, fun _ => inTime_of (expires := 100050) rfl (by decide +kernel : 8 * max 100000 100059 < 8 * 100050 + 80), rfl, by decide,
    by decide⟩

/-- HALT and CORE_RESET frames act; a HALT with a payload is rejected; a frame for another node is ignored, and a broadcast
MEAS discarded; an unassigned node keeps a broadcast NODE_ASSIGN. -/
theorem test_good_frames : (completing 0 0x50 [] sorting).sup.engine = .halted
    ∧ (completing 0xFF 0x51 [] sorting).sup.engine = .ready ∧ (completing 0 0x50 [1] sorting).ltx.outbound.map OutFrame.body = [.notice .linkError 0]
    ∧ (completing 1 0x10 [] sorting).lrx.inbound = [] ∧ (completing 0xFF 1 [] sorting).sup.lastDiscard = some .broadcast
    ∧ (completing 0xFF 0x42 [2] unassigned).lrx.inbound.length = 1 ∧ (completing 0xFF 0x10 [] unassigned).lrx.inbound = [] := by
  decide +kernel

/-- Held bytes without another SYNC, and with one; the LEN is the least that is rejected; the CRC is wrong by one. -/
theorem meets_RejectsDiscardHeldFrame :
    (let s := assembling (.frame [0xC3, 0, 1, 7]) quiet
     s.held = false ∧ s.lrx.gapTimer = some 100050 ∧ s.inTime 100059)
      ∧ (0xC3 : Byte) ∉ [(0xC3 : Byte), 0, 1, 7].tail ++ [57] ∧ [(0xC3 : Byte), 0, 1, 7].length = 4 ∧ 56 < (57 : Byte).toNat
      ∧ [(0xC3 : Byte), 0, 0xC3, 7].tail = [0] ++ 0xC3 :: [7] ∧ (0xC3 : Byte) ∉ [(0 : Byte)] ∧ Incomplete [0xC3, 7]
      ∧ [(0xC3 : Byte), 0, 0x10, 7, 0, 1] ++ [2] = 0xC3 :: 0 :: 0x10 :: 7 :: BitVec.ofNat 8 ([] : List Byte).length :: [] ++ [1, 2]
      ∧ [(1 : Byte), 2] ≠ bytesOf 2 (frameCrc (0 :: 0x10 :: 7 :: BitVec.ofNat 8 ([] : List Byte).length :: [])).toNat :=
  ⟨⟨rfl, rfl, inTime_of (expires := 100050) rfl (by decide +kernel)⟩, by decide, rfl, by decide, rfl, by decide, .inl (by decide),
    rfl, by decide +kernel⟩

end Sys2Proof.Tests
end

/-! What an accepted MEAS frame does to its record (R34 to R47): the state of the block while a result is applied, and the
three statements about contact, value and recheck results. -/

namespace Sys2Proof.Machine

section

variable {s t : State} {f : InFrame} {rest : List InFrame} {k : Nat} {r : PocketRecord} {m : Meas} {sup : Supervisor}

/-! ### The frame is accepted -/

theorem PocketRecord.refusal_contact (phase : r.phase = .open ∨ r.phase = .void)
    (new : r.hasResult .contact = false) : r.refusal .contact = none := by
  rcases phase with phase | phase <;> simp [refusal, new, phase]

theorem PocketRecord.refusal_value (phase : r.phase = .held) (new : r.hasResult .value = false) :
    r.refusal .value = none := by simp [refusal, new, phase]

theorem PocketRecord.refusal_recheck (phase : r.phase = .held) (new : r.hasResult .recheck = false)
    (measured : r.hasResult .value = true) : r.refusal .recheck = none := by simp [refusal, new, phase, measured]

theorem PocketRecord.hasResult_of_find? {st : Station} {x : Result}
    (found : r.results.find? (fun x => x.station == st) = some x) : r.hasResult st = true :=
  have same : (x.station == st) = true := List.find?_some (p := fun x : Result => x.station == st) found
  List.any_eq_true.mpr ⟨x, List.mem_of_find?_eq_some found, same⟩

/-- Taking the frame from its queue changes nothing that places it. -/
theorem State.place_setInbound (rest : List InFrame) (s : State) (e : StationEntry) (pocket : Nat) :
    (setInbound rest s).place e pocket = s.place e pocket := rfl

/-- R31, R33: a MEAS frame that its record does not refuse is applied to it. -/
theorem takeMeas_of_accepted (h : MeasAt s f rest k r m) (accepted : r.refusal m.station = none) :
    takeMeas f (setInbound rest s) = applyResult k r m (setInbound rest s) := by
  obtain ⟨e, entry, placed⟩ := h.station
  have lot : (setInbound rest s).lotOpen = true := h.lot
  have entry' : (setInbound rest s).station m.station = some e := entry
  simp [takeMeas, placeResult, lot, h.payload, entry', h.belongs, State.place_setInbound, placed, h.record, accepted]

/-- R169, R31: the Dispatcher serves an accepted MEAS frame. -/
theorem exec_meas_of_accepted (h : MeasAt s f rest k r m) (accepted : r.refusal m.station = none) :
    exec .meas s = .next (finishEvent (applyResult k r m (setInbound rest s))) := by
  calc exec .meas s = .next (whenRunning (serve (some .meas) serveMeas) s) := rfl
    _ = .next (finishLine (serveMeas f (setInbound rest s))) := by
      simp [whenRunning, serve, serveHead, h.serves.running, h.serves.head, h.serves.isKind, h.serves.ready]
    _ = .next (finishEvent (applyResult k r m (setInbound rest s))) := by
      rw [serveMeas, takeMeas_of_accepted h accepted, finishEvent]

theorem MeasAt.endsEvent {holds : State → Prop} (h : MeasAt s f rest k r m) (accepted : r.refusal m.station = none)
    (applied : holds (applyResult k r m (setInbound rest s))) : EndsEvent (exec .meas s) holds :=
  ⟨_, exec_meas_of_accepted h accepted, applied⟩

/-! ### The state while a result is applied -/

/-- `t` is `s` while a MEAS frame is being applied: the frame has left its queue, the record at offset `k` has become `r`,
the Supervisor's record `sup`, and no outlet has changed yet. -/
structure Measured (s t : State) (rest : List InFrame) (k : Nat) (r : PocketRecord) (sup : Supervisor) : Prop where
  inRing : k < s.tracker.ring.length
  tracker : t.tracker = { s.tracker with ring := s.tracker.ring.set k r }
  outlets : t.outlets = s.outlets
  sup : t.sup = sup
  keeps : MeasKeeps s t rest

/-- A change of the record at an offset where a record has been put changes that record. -/
theorem modRing_tracker_of_set {tr : Tracker} (inRing : k < tr.ring.length)
    (h : t.tracker = { tr with ring := tr.ring.set k r }) (f : PocketRecord → PocketRecord) :
    (modRing k f t).tracker = { tr with ring := tr.ring.set k (f r) } := by
  simp [modRing, setRing, h, List.modify_eq_set_getElem?, inRing]

theorem MeasKeeps.modRing (h : MeasKeeps s t rest) (k : Nat) (f : PocketRecord → PocketRecord) :
    MeasKeeps s (modRing k f t) rest :=
  ⟨h.tables, h.notices, h.outbound, h.inbound, h.time, h.lines⟩

theorem MeasKeeps.finalVerdict (h : MeasKeeps s t rest) (k : Nat) (v : Verdict) (reason : Reason) :
    MeasKeeps s (finalVerdict k v reason t) rest :=
  ⟨h.tables, h.notices, h.outbound, h.inbound, h.time, h.lines⟩

theorem MeasKeeps.setInbound (s : State) (rest : List InFrame) : MeasKeeps s (setInbound rest s) rest :=
  ⟨rfl, rfl, rfl, rfl, rfl, rfl, rfl, rfl⟩

theorem Measured.modRing (h : Measured s t rest k r sup) (f : PocketRecord → PocketRecord) :
    Measured s (modRing k f t) rest k (f r) sup where
  inRing := h.inRing
  tracker := modRing_tracker_of_set h.inRing h.tracker f
  outlets := h.outlets
  sup := h.sup
  keeps := h.keeps.modRing k f

/-- R36: the record is counted and `present` rises, holding at its largest value. -/
theorem Measured.countPart (h : Measured s t rest k r sup) :
    Measured s (countPart k t) rest k { r with counted := true } { sup with present := min (sup.present + 1) 4294967295 } :=
  Measured.modRing (t := { t with sup := { t.sup with present := countUp t.sup.present } })
    (f := fun r => { r with counted := true })
    { inRing := h.inRing
      tracker := h.tracker
      outlets := h.outlets
      sup := by rw [h.sup]; rfl
      keeps := ⟨h.keeps.tables, h.keeps.notices, h.keeps.outbound, h.keeps.inbound, h.keeps.time, h.keeps.lines⟩ }

/-- R4: an applied result has joined its record's result list. -/
theorem MeasAt.measured (h : MeasAt s f rest k r m) :
    Measured s (addResult k m (setInbound rest s)) rest k { r with results := r.results ++ [m.result] } s.sup := by
  obtain ⟨inRing, atK⟩ := List.getElem?_eq_some_iff.mp h.record
  refine Measured.modRing (t := setInbound rest s) (f := fun r => { r with results := r.results ++ [m.result] })
    ⟨inRing, ?_, rfl, rfl, .setInbound s rest⟩
  simp [← atK]

/-! ### The final verdict -/

theorem State.usable_congr (tables : t.tables = s.tables) (outlets : t.outlets = s.outlets) (offset : Nat) :
    t.usable offset = s.usable offset := by
  funext n
  simp [State.usable, State.outletEntry_congr tables, outlets]

/-- R56: a candidate that is not usable hands over to its overflow outlet, or to the sweep outlet when it names none. -/
theorem State.routeFrom_succ (s : State) (offset left hops : Nat) (n : Fin 16) :
    s.routeFrom offset (left + 1) hops n = if s.usable offset n then { outlet := n, hops := hops } else
      (((s.outletEntry n).bind OutletEntry.overflow).map (s.routeFrom offset left (hops + 1))).getD
        { outlet := s.sweepOutlet, hops := Config.sweepHops } := by
  cases overflow : (s.outletEntry n).bind OutletEntry.overflow <;> simp [State.routeFrom, overflow]

theorem State.routeFrom_congr (tables : t.tables = s.tables) (outlets : t.outlets = s.outlets) (offset left : Nat) :
    t.routeFrom offset left = s.routeFrom offset left := by
  have sweep : t.sweepOutlet = s.sweepOutlet := by
    have : t.isSweep = s.isSweep := by
      funext n
      simp [State.isSweep, State.outletEntry_congr tables]
    simp [State.sweepOutlet, this]
  induction left with
  | zero =>
    funext hops n
    simp [State.routeFrom, State.usable_congr tables outlets, sweep]
  | succ left ih =>
    funext hops n
    simp only [State.routeFrom_succ, State.usable_congr tables outlets, State.outletEntry_congr tables, sweep, ih]

theorem State.route_congr (tables : t.tables = s.tables) (outlets : t.outlets = s.outlets)
    (first : Fin 16) (offset : Nat) : t.route first offset = s.route first offset := by
  simp only [State.route, State.routeFrom_congr tables outlets]

theorem State.lotEntry_congr (tables : t.tables = s.tables) : t.lotEntry = s.lotEntry := by
  simp [State.lotEntry, tables]

theorem State.station_congr (tables : t.tables = s.tables) (st : Station) :
    t.station st = s.station st := by simp [State.station, tables]

theorem State.firstCandidate_congr (tables : t.tables = s.tables) (v : Verdict) :
    t.firstCandidate v = s.firstCandidate v := by
  cases v <;> simp [State.firstCandidate, State.lotEntry_congr tables, tables]

/-- R47, R57: a final verdict writes one record and reserves 1 at the outlet that routing chooses. -/
theorem finalVerdict_outlets (k : Nat) (v : Verdict) (reason : Reason) (s : State) (n : Fin 16) :
    (finalVerdict k v reason s).outlets[n] = { s.outlets[n] with
      reserved := s.outlets[n].reserved + if (s.route (s.firstCandidate v) k).outlet = n then 1 else 0 } := by
  have sameNumber : ((s.route (s.firstCandidate v) k).outlet : Nat) = n ↔ (s.route (s.firstCandidate v) k).outlet = n :=
    Fin.ext_iff.symm
  simp only [finalVerdict, modRing_outlets, Fin.getElem_fin, modOutlet_get, sameNumber]
  split <;> rfl

/-- R45 to R47: a final verdict decides the record as the result has left it, by the tables and outlets of the start. -/
theorem Measured.finalVerdict_decides (h : Measured s t rest k r sup) (v : Verdict) (reason : Reason) :
    s.decides (finalVerdict k v reason t) k r v reason ∧ (finalVerdict k v reason t).sup = sup
      ∧ MeasKeeps s (finalVerdict k v reason t) rest := by
  have sameRoute : t.route (t.firstCandidate v) k = s.route (s.firstCandidate v) k := by
    rw [State.firstCandidate_congr h.keeps.tables, State.route_congr h.keeps.tables h.outlets]
  refine ⟨⟨?tracker, fun n => ?outlet⟩, ?sup, h.keeps.finalVerdict k v reason⟩
  case tracker =>
    rw [← sameRoute]
    exact modRing_tracker_of_set h.inRing h.tracker _
  case outlet => rw [finalVerdict_outlets, sameRoute, h.outlets]
  case sup => rw [finalVerdict_sup, h.sup]

/-! ### Results by station -/

theorem applyResult_contactOpen (station : m.station = .contact) (phase : r.phase = .open) (s : State) :
    applyResult k r m s = contactOpen k m.status (addResult k m s) := by simp [applyResult, station, phase]

theorem applyResult_contactVoid (station : m.station = .contact) (phase : r.phase = .void) (s : State) :
    applyResult k r m s = contactVoid k m.status (addResult k m s) := by simp [applyResult, station, phase]

theorem applyResult_value (station : m.station = .value) (s : State) :
    applyResult k r m s = valueResult k m (addResult k m s) := by simp [applyResult, station]

theorem applyResult_recheck (station : m.station = .recheck) (s : State) :
    applyResult k r m s = recheckResult k r m (addResult k m s) := by simp [applyResult, station]

/-! ### Classes (R38 to R40) -/

theorem TableSet.classOf_eq_find? (t : TableSet) (d : Int) :
    t.classOf d = Fin.find? fun c => t.classes[c].any fun e => e.takes d := by
  rw [Fin.find?_eq_find?_finRange]
  rfl

theorem State.classContains_iff {t : TableSet} (active : s.tables.active = some t) (d : Int) (c : Fin 32) :
    s.classContains d c ↔ (t.classes[c].any fun e => e.takes d) = true := by
  simp only [State.classContains, active, Option.some.injEq, exists_and_left, exists_eq_left']
  cases t.classes[c] <;> simp [ClassEntry.takes, and_assoc]

theorem State.not_classContains_of_inactive (inactive : s.tables.active = none) (d : Int) (c : Fin 32) :
    ¬ s.classContains d c := by simp [State.classContains, inactive]

/-- R39: the search finds the first class that contains the deviation. -/
theorem State.classOf_eq_some_iff {d : Int} {c : Fin 32} : s.classOf d = some c ↔ s.firstClass d c := by
  cases active : s.tables.active with
  | none => simp [State.classOf, State.firstClass, State.not_classContains_of_inactive, active]
  | some t =>
    simp only [State.classOf, State.firstClass, active, Option.bind_some, TableSet.classOf_eq_find?,
      Fin.find?_eq_some_iff, State.classContains_iff active, Bool.not_eq_true]

/-- R39: the search finds nothing when no class contains the deviation. -/
theorem State.classOf_eq_none_iff {d : Int} : s.classOf d = none ↔ ∀ c, ¬ s.classContains d c := by
  cases active : s.tables.active with
  | none => simp [State.classOf, State.not_classContains_of_inactive, active]
  | some t =>
    simp only [State.classOf, active, Option.bind_some, TableSet.classOf_eq_find?, Fin.find?_eq_none_iff,
      State.classContains_iff active, Bool.not_eq_true]

theorem State.classOf_congr (tables : t.tables = s.tables) (d : Int) : t.classOf d = s.classOf d := by
  simp [State.classOf, tables]

theorem clampPpm_of_saturated {d : Int} (beyond : 999999 < d.natAbs) :
    clampPpm d = if d < 0 then -999999 else 999999 := by
  simp only [clampPpm, Config.ppmMax]
  omega

/-! ### Value results (R37 to R41) -/

/-- R38: a deviation beyond the range saturates, and is out of tolerance. -/
theorem valueOk_of_saturated {v : Nat × Int} {lot : LotEntry} (entry : s.lotEntry = some lot)
    (beyond : 999999 < (deviationOf (milliohms v) lot.nominal).natAbs) :
    valueOk k v s = finalVerdict k .outOfTolerance .outOfTolerance (modRing k (fun r => { r with
      deviation := some (clampPpm (deviationOf (milliohms v) lot.nominal)), saturated := true }) s) := by
  simp [valueOk, entry, Config.ppmMax, beyond]

/-- R39: a deviation within the range is put to the class search. -/
theorem valueOk_of_inRange {v : Nat × Int} {lot : LotEntry} (entry : s.lotEntry = some lot)
    (within : (deviationOf (milliohms v) lot.nominal).natAbs ≤ 999999) :
    valueOk k v s = classify k (deviationOf (milliohms v) lot.nominal)
      (modRing k (fun r => { r with deviation := some (deviationOf (milliohms v) lot.nominal) }) s) := by
  simp [valueOk, entry, Config.ppmMax, Nat.not_lt.mpr within]

theorem classify_of_none {d : Int} (noClass : s.classOf d = none) :
    classify k d s = finalVerdict k .outOfTolerance .outOfTolerance s := by simp [classify, noClass]

/-- R40: with station 2 enabled the class stays provisional. -/
theorem classify_provisional {d : Int} {c : Fin 32} (found : s.classOf d = some c)
    (recheck : (s.station .recheck).isSome = true) :
    classify k d s = modRing k (fun r => { r with provisional := some c }) s := by simp [classify, found, recheck]

theorem classify_final {d : Int} {c : Fin 32} (found : s.classOf d = some c)
    (recheck : (s.station .recheck).isSome = false) : classify k d s = finalVerdict k (.cls c) .inClass s := by
  simp [classify, found, recheck]

/-! ### Recheck results (R42 to R44) -/

theorem PocketRecord.firstValue_of_find? {v : Nat × Int}
    (found : r.results.find? (fun x => x.station == .value) = some { station := .value, status := .ok, value := some v }) :
    r.firstValue = milliohms v := by simp [firstValue, found]

/-- R42: the drift in parts per million of V1, saturated, and saturated for a V1 of 0. -/
theorem driftOf_eq {v1 v2 drift : Nat}
    (h : (v1 = 0 ∧ drift = 999999) ∨
      (v1 ≠ 0 ∧ drift = min 999999 (1000000 * ((v2 : Int) - (v1 : Int)).natAbs / v1))) : driftOf v1 v2 = drift := by
  rcases h with ⟨zero, rfl⟩ | ⟨positive, rfl⟩
  · simp [driftOf, zero, Config.ppmMax]
  · simp [driftOf, positive, Config.ppmMax]

/-- R43: the verdict and the reason by the drift limit, for a record with a provisional class. -/
theorem judgeDrift_eq {drift : Nat} {lot : LotEntry} {c : Fin 32} {verdict : Verdict} {reason : Reason}
    (entry : s.lotEntry = some lot) (provisional : r.provisional = some c)
    (h : (lot.driftLimit < drift ∧ verdict = .driftReject ∧ reason = .drift) ∨
      (drift ≤ lot.driftLimit ∧ verdict = .cls c ∧ reason = .inClass)) :
    judgeDrift k r drift s = finalVerdict k verdict reason s := by
  rcases h with ⟨above, rfl, rfl⟩ | ⟨within, rfl, rfl⟩
  · simp [judgeDrift, entry, above]
  · simp [judgeDrift, entry, Nat.not_lt.mpr within, provisional]

/-- R44: a status of station 2 other than OK decides RETEST. -/
theorem recheckResult_of_ne_ok (belongs : m.status.belongsTo .recheck = true)
    (notOk : m.status ≠ .ok) (s : State) : recheckResult k r m s = finalVerdict k .retest .meterError s := by
  cases status : m.status with
  | ok => exact absurd status notOk
  | overHigh | overLow | meterError => simp [recheckResult, status]
  | part | noPart | contactFail => simp [status, Status.belongsTo] at belongs

end

/-! ### The statements -/

/-- Settles O38: by the record's phase and the status, the applied result is one or two changes of the record, with a final
verdict after them where R34 and R35 give one. -/
theorem contactResultApplies : Obligations.ContactResultApplies := by
  intro s f rest k r m h station new
  have ends {holds : State → Prop} (phase : r.phase = .open ∨ r.phase = .void)
      (applied : holds (applyResult k r m (setInbound rest s))) : EndsEvent (exec .meas s) holds :=
    h.endsEvent (station ▸ PocketRecord.refusal_contact phase new) applied
  refine ⟨fun phase status => ends (.inl phase) ?part, fun phase status => ends (.inl phase) ?noPart,
    fun phase status => ends (.inr phase) ?voidNoPart, fun verdict reason row => ?decided⟩
  case part =>
    have now := h.measured.countPart.modRing fun r => { r with phase := .held }
    rw [applyResult_contactOpen station phase, status]
    exact ⟨now.tracker, now.outlets, now.sup, now.keeps⟩
  case noPart =>
    have now := h.measured.modRing fun r => { r with phase := .empty }
    rw [applyResult_contactOpen station phase, status]
    exact ⟨now.tracker, now.outlets, now.sup, now.keeps⟩
  case voidNoPart =>
    have now := h.measured
    rw [applyResult_contactVoid station phase, status]
    exact ⟨now.tracker, now.outlets, now.sup, now.keeps⟩
  case decided =>
    have decides := h.measured.countPart.finalVerdict_decides verdict reason
    rcases row with ⟨phase, status, rfl, rfl⟩ | ⟨phase, status, rfl, rfl⟩
    · refine ends (.inl phase) ?_
      rw [applyResult_contactOpen station phase, status]
      exact decides
    · refine ends (.inr phase) ?_
      have stray : contactVoid k m.status = fun s => finalVerdict k .retest .stray (countPart k s) := by
        rcases status with status | status <;> rw [status] <;> rfl
      rw [applyResult_contactVoid station phase, stray]
      exact decides

/-- Settles O39: an OK value writes its deviation, and the range, the class search and station 2 give what follows; any other
status of station 1 decides on the record with its new result. -/
theorem valueResultApplies : Obligations.ValueResultApplies := by
  intro s f rest k r m lot h station phase new entry
  have ends {holds : State → Prop} (applied : holds (valueResult k m (addResult k m (setInbound rest s)))) :
      EndsEvent (exec .meas s) holds :=
    h.endsEvent (station ▸ PocketRecord.refusal_value phase new) (by rwa [applyResult_value station])
  have entry' : (addResult k m (setInbound rest s)).lotEntry = some lot :=
    (State.lotEntry_congr h.measured.keeps.tables).trans entry
  refine ⟨fun v d ok value hd => ?ok, fun verdict reason row => ends ?other⟩
  case ok =>
    replace hd : deviationOf (milliohms v) lot.nominal = d := hd.symm
    have okResult (s : State) : valueResult k m s = valueOk k v s := by simp [valueResult, ok, value]
    have deviated := h.measured.modRing fun r => { r with deviation := some d }
    have sameClass := State.classOf_congr deviated.keeps.tables d
    have sameRecheck := State.station_congr deviated.keeps.tables .recheck
    have inRange (within : d.natAbs ≤ 999999) : valueResult k m (addResult k m (setInbound rest s))
        = classify k d (modRing k (fun r => { r with deviation := some d }) (addResult k m (setInbound rest s))) := by
      rw [okResult, valueOk_of_inRange entry' (hd ▸ within), hd]
    refine ⟨fun c within isFirst recheck => ends ?_, fun verdict reason dev saturated row => ends ?_⟩
    · have now := deviated.modRing fun r => { r with provisional := some c }
      rw [inRange within, classify_provisional (sameClass.trans (State.classOf_eq_some_iff.mpr isFirst))
        (by rwa [sameRecheck])]
      exact ⟨now.tracker, now.outlets, now.sup, now.keeps⟩
    · rcases row with ⟨beyond, rfl, rfl, rfl, rfl⟩ | ⟨within, noClass, rfl, rfl, rfl, rfl⟩
        | ⟨c, within, isFirst, recheck, rfl, rfl, rfl, rfl⟩
      · rw [okResult, valueOk_of_saturated entry' (hd ▸ beyond), hd, clampPpm_of_saturated beyond]
        exact (h.measured.modRing _).finalVerdict_decides _ _
      · rw [inRange within, classify_of_none (sameClass.trans (State.classOf_eq_none_iff.mpr noClass))]
        exact deviated.finalVerdict_decides _ _
      · rw [inRange within, classify_final (sameClass.trans (State.classOf_eq_some_iff.mpr isFirst))
          (by rwa [sameRecheck])]
        exact deviated.finalVerdict_decides _ _
  case other =>
    have decides := h.measured.finalVerdict_decides verdict reason
    rcases row with ⟨status | status, rfl, rfl⟩ | ⟨status, rfl, rfl⟩ <;> rw [valueResult, status] <;> exact decides

/-- Settles O40: an OK value writes the drift from V1, which the drift limit judges; any other status of station 2 decides
RETEST on the record with its new result. -/
theorem recheckResultApplies : Obligations.RecheckResultApplies := by
  intro s f rest k r m lot c v1 h station phase new firstValue provisional entry
  have ends {holds : State → Prop} (applied : holds (recheckResult k r m (addResult k m (setInbound rest s)))) :
      EndsEvent (exec .meas s) holds :=
    h.endsEvent (station ▸ PocketRecord.refusal_recheck phase new (PocketRecord.hasResult_of_find? firstValue))
      (by rwa [applyResult_recheck station])
  refine ⟨fun v2 drift verdict reason ok value hdrift verdictBy => ends ?ok, fun notOk => ends ?other⟩
  case ok =>
    have drifted := h.measured.modRing fun r => { r with drift := some drift }
    have okResult (s : State) : recheckResult k r m s
        = judgeDrift k r drift (modRing k (fun r => { r with drift := some drift }) s) := by
      simp [recheckResult, ok, value, PocketRecord.firstValue_of_find? firstValue, driftOf_eq hdrift]
    rw [okResult, judgeDrift_eq ((State.lotEntry_congr drifted.keeps.tables).trans entry) provisional verdictBy]
    exact drifted.finalVerdict_decides verdict reason
  case other =>
    rw [recheckResult_of_ne_ok (station ▸ h.belongs) notOk]
    exact h.measured.finalVerdict_decides .retest .meterError

end Sys2Proof.Machine

/-! What a command can do to the blocks that hold and count the parts, said once for every command: a law that the events of
these blocks keep is kept by every command. -/

namespace Sys2Proof.Machine

/-! ### Changes outside the Tracker, the outlets, the Supervisor and the active set -/

/-- The Tracker, the outlets, the Supervisor and the active set are the same in both states. -/
structure SameBlocks (s t : State) : Prop where
  tracker : t.tracker = s.tracker
  outlets : t.outlets = s.outlets
  sup : t.sup = s.sup
  active : t.tables.active = s.tables.active

section

variable (s : State)

theorem SameBlocks.refl : SameBlocks s s := ⟨rfl, rfl, rfl, rfl⟩

theorem SameBlocks.trans {s t u : State} (h : SameBlocks s t) (h' : SameBlocks t u) : SameBlocks s u :=
  ⟨h'.tracker.trans h.tracker, h'.outlets.trans h.outlets, h'.sup.trans h.sup, h'.active.trans h.active⟩

theorem SameBlocks.symm {s t : State} (h : SameBlocks s t) : SameBlocks t s :=
  ⟨h.tracker.symm, h.outlets.symm, h.sup.symm, h.active.symm⟩

theorem advanceTo_same (time : Nat) : SameBlocks s (advanceTo time s) := ⟨rfl, rfl, rfl, rfl⟩

theorem setInbound_same (frames : List InFrame) : SameBlocks s (setInbound frames s) := ⟨rfl, rfl, rfl, rfl⟩

theorem raiseNotice_same (c : Condition) (detail : Nat) : SameBlocks s (raiseNotice c detail s) := ⟨rfl, rfl, rfl, rfl⟩

theorem enqueue_same (tag : Byte) (body : OutBody) : SameBlocks s (enqueue tag body s) := ⟨rfl, rfl, rfl, rfl⟩

theorem reply_same (f : InFrame) (result : ResultCode) (bytes : List Byte) : SameBlocks s (reply f result bytes s) :=
  enqueue_same s _ _

theorem drawUnstated_same : SameBlocks s (drawUnstated s) := ⟨rfl, rfl, rfl, rfl⟩

theorem startTransmission_same : SameBlocks s (startTransmission s) := ⟨rfl, rfl, rfl, rfl⟩

theorem queueOwed_same : SameBlocks s (queueOwed s) := ⟨by simp, by simp, by simp, by simp⟩

theorem finishLine_same : SameBlocks s (finishLine s) := ⟨by simp, by simp, by simp, by simp⟩

theorem admitUrgent_same : SameBlocks s (admitUrgent s) := ⟨rfl, rfl, rfl, rfl⟩

theorem quietTxd_same (since : Nat) : SameBlocks s (quietTxd since s) := ⟨rfl, rfl, rfl, rfl⟩

theorem freePlace_same : SameBlocks s (freePlace s) := ⟨rfl, rfl, rfl, rfl⟩

theorem setStaging_same (staged : TableSet) (check : Crc) : SameBlocks s (setStaging staged check s) :=
  ⟨rfl, rfl, rfl, rfl⟩

theorem setAssembler_same (a : Assembler) : SameBlocks s (setAssembler a s) := ⟨rfl, rfl, rfl, rfl⟩

theorem rejectFrame_same (trouble : LinkTrouble) : SameBlocks s (rejectFrame trouble s) := ⟨rfl, rfl, rfl, rfl⟩

theorem appendInbound_same (f : InFrame) : SameBlocks s (appendInbound f s) := ⟨by simp, by simp, by simp, by simp⟩

theorem offerHaltReply_same (tag : Byte) (result : ResultCode) : SameBlocks s (offerHaltReply tag result s) :=
  ⟨by simp, by simp, by simp, by simp⟩

theorem timeGap_same : SameBlocks s (timeGap s) := ⟨rfl, rfl, rfl, rfl⟩

theorem markChar_same : SameBlocks s (markChar s) := ⟨rfl, rfl, rfl, rfl⟩

theorem announceStart_same (cause : ResetCause) : SameBlocks s (announceStart cause s) :=
  ⟨by simp, by simp, by simp, by simp⟩

theorem finishReception_same : SameBlocks s (finishReception s) := (timeGap_same s).trans (finishLine_same _)

/-! ### Requests that change none of these blocks -/

theorem serveStatusQuery_same (f : InFrame) : SameBlocks s (serveStatusQuery f s) := by
  unfold serveStatusQuery
  split
  · exact reply_same ..
  · exact (reply_same s ..).trans (drawUnstated_same _)

theorem servePocketQuery_same (f : InFrame) : SameBlocks s (servePocketQuery f s) := by
  unfold servePocketQuery badField
  repeat' split
  all_goals exact reply_same ..

theorem serveOutletQuery_same (f : InFrame) : SameBlocks s (serveOutletQuery f s) := by
  unfold serveOutletQuery
  split
  · exact reply_same ..
  · split
    · exact reply_same ..
    · exact (reply_same s ..).trans (drawUnstated_same _)

theorem storeEntry_same (f : InFrame) (kind : TableKind) : SameBlocks s (storeEntry f kind s) :=
  (setStaging_same s ..).trans (reply_same ..)

theorem serveTableWrite_same (f : InFrame) : SameBlocks s (serveTableWrite f s) := by
  unfold serveTableWrite badField
  split
  · split <;> exact reply_same ..
  split
  · exact reply_same ..
  split
  · exact reply_same ..
  split
  · exact reply_same ..
  · exact storeEntry_same ..

theorem serveTableRead_same (f : InFrame) : SameBlocks s (serveTableRead f s) := by
  unfold serveTableRead badField
  repeat' split
  all_goals exact reply_same ..

theorem discardStaging_same : SameBlocks s (discardStaging s) := setStaging_same ..

theorem serveTableDiscard_same (f : InFrame) : SameBlocks s (serveTableDiscard f s) := by
  unfold serveTableDiscard
  split
  · exact reply_same ..
  · exact (discardStaging_same s).trans (reply_same ..)

theorem serveNoticeAck_same (f : InFrame) : SameBlocks s (serveNoticeAck f s) := by
  unfold serveNoticeAck badField
  repeat' split
  case isFalse.isFalse => exact SameBlocks.trans (t := ackNotices _ s) ⟨rfl, rfl, rfl, rfl⟩ (reply_same ..)
  all_goals exact reply_same ..

theorem serveNoticeMask_same (f : InFrame) : SameBlocks s (serveNoticeMask f s) := by
  unfold serveNoticeMask badField
  repeat' split
  case isFalse.isFalse => exact SameBlocks.trans (t := maskNotices _ s) ⟨rfl, rfl, rfl, rfl⟩ (reply_same ..)
  all_goals exact reply_same ..

theorem serveNodeAssign_same (f : InFrame) : SameBlocks s (serveNodeAssign f s) := by
  unfold serveNodeAssign badField
  repeat' split
  case h_2.isFalse => exact ⟨rfl, rfl, rfl, rfl⟩
  all_goals exact reply_same ..

theorem onUrgentReply_same : SameBlocks s (onUrgentReply s) := by
  unfold onUrgentReply
  split
  · split
    · exact ⟨by simp, by simp, by simp, by simp⟩
    · exact .refl s
  · exact .refl s

theorem onNotice_same : SameBlocks s (onNotice s) := by
  unfold onNotice
  repeat' split
  case h_1.isTrue => exact ⟨by simp, by simp, by simp, by simp⟩
  all_goals exact .refl s

theorem idle_same : SameBlocks s (idle s) := by
  unfold idle
  split <;> exact ⟨rfl, rfl, rfl, rfl⟩

end

/-! ### Laws that the events keep -/

/-- The events take every state with `P` to one with `Q`; an event that can move records first reaches a state with `R`, on
which the stage tests (R149, R153, R154) give `Q`. -/
structure EventsKeep (P R Q : State → Prop) : Prop where
  congr_P : ∀ {s t}, SameBlocks s t → P s → P t
  congr_R : ∀ {s t}, SameBlocks s t → R s → R t
  congr_Q : ∀ {s t}, SameBlocks s t → Q s → Q t
  weaken : ∀ {s}, P s → Q s
  relax : ∀ {s}, Q s → R s
  stages : ∀ {s}, R s → Q (advanceClearance s)
  close : ∀ {s}, Q s → Q (summaryStep s)
  count : ∀ {s} (by_ : Int), R s → R (countIndex by_ s)
  fault : ∀ {s} (code : FaultCode) (pocket : Nat) (seq : Option Nat), Q s → Q (raiseFault code pocket seq s)
  discarded : ∀ {s} (reason : Discard), Q s → Q (discard reason s)
  coreReset : ∀ {s}, Q s → Q (coreReset s)
  fullReset : ∀ {s} (cause : ResetCause) (held : Bool) (rate : BitRate) (address : Option (Fin 4)),
    Q (fullReset cause held rate address s)
  forward : ∀ {s} (home : Bool), s.lotOpen = true → P s → R (forwardParts home s)
  reverse : ∀ {s}, s.lotOpen = true → P s → R (reverseParts s)
  sample : ∀ {s} (check : Bool), s.lotOpen = true → P s → R (takeSample check (stopCheckTimer s))
  delay : ∀ {s} (n : Fin 16) (name : RecordName) (expires : Nat), s.outlets[n].slot = .delay name expires → P s →
    R (fireTests n name s)
  pulse : ∀ {s} (n : Fin 16) (ends : Nat), s.outlets[n].drive = .pulse ends → P s →
    R (retestDue n (modOutlet n (fun o => { o with drive := .quiet }) s))
  ack : ∀ {s} (n : Fin 16) (expires : Nat) (claim : Option RecordName), s.outlets[n].drive = .strobe expires claim → P s →
    R (retestDue n (answerStrobe n claim s))
  ackLimit : ∀ {s} (n : Fin 16) (expires : Nat) (claim : Option RecordName), s.outlets[n].drive = .strobe expires claim →
    P s → R (retestDue n (faultOutlet n (strandClaim claim (modOutlet n (fun o => { o with drive := .quiet }) s))))
  drop : ∀ {s} (n : Fin 16) (cfg : OutletEntry), s.outletEntry n = some cfg → P s → R (takeDrop n cfg s)
  miss : ∀ {s} (n : Fin 16) (e : Entry) (rest : List Entry), s.outlets[n].queue = e :: rest → P s →
    R (missHead n e rest s)
  meas : ∀ {s} (f : InFrame), P s → R (takeMeas f s)
  activate : ∀ {s}, s.lotOpen = false → P s → Q (activate s)
  openLot : ∀ {s} (lotId loadPocket : Nat), s.sup.engine = .ready → P s → Q (openLot lotId loadPocket s)
  runOut : ∀ {s}, s.lotEndTaken = true → P s → R (beginClearance .runOut .ran s)
  abandon : ∀ {s}, s.lotEndTaken = true → P s → R (abandonRunOut (beginClearance .settle .abandoned s))
  abort : ∀ {s}, s.lotOpen = true → P s → Q (abortClose (abortBookings s))
  resume : ∀ {s}, s.sup.engine = .halted → P s → Q (leaveHalted s)
  emptyBin : ∀ {s} (n : Fin 16), P s → Q (emptyBin n s)

namespace EventsKeep

variable {P R Q : State → Prop} (h : EventsKeep P R Q) {s : State}

include h

/-! ### The ends of events -/

theorem finishLine (hs : Q s) : Q (finishLine s) := h.congr_Q (finishLine_same s) hs

theorem finishEvent (hs : R s) : Q (finishEvent s) := h.finishLine (h.stages hs)

theorem whenRunning {f : State → State} (hs : P s) (hf : P s → Q (f s)) : Q (whenRunning f s) := by
  unfold Machine.whenRunning
  split
  · exact h.weaken hs
  · exact hf hs

theorem inLot {f : State → State} (hs : P s) (hf : s.lotOpen = true → P s → Q (f s)) : Q (inLot f s) := by
  unfold Machine.inLot
  split
  · next lot => exact hf lot hs
  · exact h.weaken hs

theorem advanceTo (time : Nat) (hs : P s) : P (advanceTo time s) := h.congr_P (advanceTo_same s time) hs

/-! ### The dial and the outlets -/

theorem onForwardIndex (home : Bool) (lot : s.lotOpen = true) (hs : P s) : Q (onForwardIndex home s) := by
  have tested := h.stages (h.count 1 (h.forward home lot hs))
  unfold Machine.onForwardIndex countForward
  refine h.finishLine ?_
  dsimp only
  split
  · exact h.fault _ _ _ tested
  · exact tested

theorem onReverseIndex (lot : s.lotOpen = true) (hs : P s) : Q (onReverseIndex s) :=
  h.finishEvent (h.count _ (h.reverse lot hs))

theorem onCheckSample (check : Bool) (lot : s.lotOpen = true) (hs : P s) : Q (onCheckSample check s) := by
  unfold Machine.onCheckSample
  split
  · exact h.finishEvent (h.sample check lot (h.advanceTo _ hs))
  · exact h.weaken hs

theorem onFireDelayExpiry (n : Fin 16) (hs : P s) : Q (onFireDelayExpiry n s) := by
  unfold Machine.onFireDelayExpiry
  split
  · next name expires slot =>
    split
    · exact h.finishEvent (h.delay n name expires slot (h.advanceTo _ hs))
    · exact h.weaken hs
  · exact h.weaken hs
  · exact h.weaken hs

theorem onPulseEnd (n : Fin 16) (hs : P s) : Q (onPulseEnd n s) := by
  unfold Machine.onPulseEnd
  split
  · next ends drive => exact h.finishEvent (h.pulse n ends drive (h.advanceTo _ hs))
  · exact h.weaken hs
  · exact h.weaken hs

theorem onAck (n : Fin 16) (hs : P s) : Q (onAck n s) := by
  unfold Machine.onAck
  split
  · exact h.weaken hs
  · split
    · next expires claim drive => exact h.finishEvent (h.ack n expires claim drive hs)
    · exact h.weaken hs
    · exact h.weaken hs

theorem onAckLimitExpiry (n : Fin 16) (hs : P s) : Q (onAckLimitExpiry n s) := by
  unfold Machine.onAckLimitExpiry
  split
  · next expires claim drive => exact h.finishEvent (h.ackLimit n expires claim drive (h.advanceTo _ hs))
  · exact h.weaken hs
  · exact h.weaken hs

theorem onDrop (n : Fin 16) (hs : P s) : Q (onDrop n s) := by
  unfold Machine.onDrop
  split
  · exact h.weaken hs
  · split
    · next cfg entry => exact h.finishEvent (h.drop n cfg entry hs)
    · exact h.weaken hs

theorem onFlightMaxMiss (n : Fin 16) (hs : P s) : Q (onFlightMaxMiss n s) := by
  unfold Machine.onFlightMaxMiss
  split
  · next cfg e rest _ queue => exact h.finishEvent (h.miss n e rest queue (h.advanceTo _ hs))
  · exact h.weaken hs

/-! ### Requests -/

theorem reply (f : InFrame) (result : ResultCode) (bytes : List Byte) (hs : Q s) : Q (reply f result bytes s) :=
  h.congr_Q (reply_same ..) hs

theorem refuse (f : InFrame) (result : ResultCode) (bytes : List Byte) (hs : P s) : Q (Machine.reply f result bytes s) :=
  h.reply _ _ _ (h.weaken hs)

theorem serveTableCommit (f : InFrame) (hs : P s) : Q (serveTableCommit f s) := by
  unfold Machine.serveTableCommit commit
  split
  · exact h.refuse _ _ _ hs
  split
  · exact h.refuse _ _ _ hs
  · next lot =>
    split
    · exact h.reply _ _ _ (h.congr_Q (discardStaging_same s) (h.weaken hs))
    · split
      · exact h.refuse _ _ _ hs
      · exact h.reply _ _ _ (h.activate (by simpa using lot) hs)

theorem serveLotStart (f : InFrame) (hs : P s) : Q (serveLotStart f s) := by
  unfold Machine.serveLotStart badField
  split
  · exact h.refuse _ _ _ hs
  split
  · exact h.refuse _ _ _ hs
  · next ready =>
    split
    · exact h.refuse _ _ _ hs
    · split
      · exact h.congr_Q (drawUnstated_same _) (h.refuse _ _ _ hs)
      · exact h.reply _ _ _ (h.openLot _ _ (not_not.mp ready) hs)

theorem serveLotEnd (f : InFrame) (hs : P s) : Q (serveLotEnd f s) := by
  unfold Machine.serveLotEnd
  split
  · exact h.refuse _ _ _ hs
  split
  · exact h.refuse _ _ _ hs
  · next taken =>
    rw [Bool.not_eq_false] at taken
    split
    · exact h.stages (h.congr_R (reply_same ..) (h.abandon taken hs))
    · exact h.stages (h.congr_R (reply_same ..) (h.runOut taken hs))

theorem serveLotAbort (f : InFrame) (hs : P s) : Q (serveLotAbort f s) := by
  unfold Machine.serveLotAbort
  split
  · exact h.refuse _ _ _ hs
  split
  · exact h.refuse _ _ _ hs
  · next lot => exact h.congr_Q (enqueue_same ..) (h.reply _ _ _ (h.abort (by simpa using lot) hs))

theorem serveClearFault (f : InFrame) (hs : P s) : Q (serveClearFault f s) := by
  unfold Machine.serveClearFault
  split
  · exact h.refuse _ _ _ hs
  split
  · exact h.refuse _ _ _ hs
  · next halted =>
    split
    · exact h.congr_Q (drawUnstated_same _) (h.refuse _ _ _ hs)
    · exact h.close (h.congr_Q (drawUnstated_same _) (h.reply _ _ _ (h.resume (not_not.mp halted) hs)))

theorem serveOutletReset (f : InFrame) (hs : P s) : Q (serveOutletReset f s) := by
  unfold Machine.serveOutletReset
  split
  · exact h.refuse _ _ _ hs
  split
  · exact h.refuse _ _ _ hs
  · dsimp only
    split
    · exact h.refuse _ _ _ hs
    · exact h.reply _ _ _ (h.emptyBin _ hs)

/-- Every effect of the Dispatcher, by the frame's KIND. -/
theorem effectOf (kind : Option RequestKind) (f : InFrame) (hs : P s) : Q (effectOf kind f s) := by
  have same {t : State} (ht : SameBlocks s t) : Q t := h.congr_Q ht (h.weaken hs)
  match kind with
  | some .meas => exact h.stages (h.meas f hs)
  | some .statusQuery => exact same (serveStatusQuery_same s f)
  | some .pocketQuery => exact same (servePocketQuery_same s f)
  | some .outletQuery => exact same (serveOutletQuery_same s f)
  | some .tableWrite => exact same (serveTableWrite_same s f)
  | some .tableRead => exact same (serveTableRead_same s f)
  | some .tableDiscard => exact same (serveTableDiscard_same s f)
  | some .tableCommit => exact h.serveTableCommit f hs
  | some .lotStart => exact h.serveLotStart f hs
  | some .lotEnd => exact h.serveLotEnd f hs
  | some .lotAbort => exact h.serveLotAbort f hs
  | some .outletReset => exact h.serveOutletReset f hs
  | some .clearFault => exact h.serveClearFault f hs
  | some .noticeAck => exact same (serveNoticeAck_same s f)
  | some .noticeMask => exact same (serveNoticeMask_same s f)
  | some .nodeAssign => exact same (serveNodeAssign_same s f)
  | none => exact same (reply_same s f .unknownKind [])

theorem serveHead (kind : Option RequestKind) (f : InFrame) (rest : List InFrame) (hs : P s) :
    Q (serveHead (Machine.effectOf kind) f rest s) :=
  h.effectOf kind f (h.congr_P (setInbound_same s rest) hs)

theorem serve (kind : Option RequestKind) (hs : P s) : Q (serve kind (Machine.effectOf kind) s) := by
  unfold Machine.serve
  split
  · split
    · exact h.finishLine (h.serveHead kind _ _ hs)
    · exact h.weaken hs
  · exact h.weaken hs

theorem serveWaiting (waited : Bool) (hs : P s) : Q (serveWaiting waited s) := by
  unfold Machine.serveWaiting
  split
  · split
    · exact h.serveHead _ _ _ hs
    · exact h.weaken hs
  · exact h.weaken hs

theorem onTransmissionEnd (hs : P s) : Q (onTransmissionEnd s) := by
  unfold Machine.onTransmissionEnd
  split
  · refine h.congr_Q ((queueOwed_same _).trans (startTransmission_same _)) (h.close (h.serveWaiting _ ?_))
    exact h.congr_P ((((advanceTo_same s _).trans (quietTxd_same _ _)).trans (freePlace_same _)).trans (admitUrgent_same _)) hs
  · exact h.congr_Q (((advanceTo_same s _).trans (quietTxd_same _ _)).trans (startTransmission_same _)) (h.weaken hs)
  · exact h.weaken hs

theorem onSummaryStage (hs : P s) : Q (onSummaryStage s) := by
  unfold Machine.onSummaryStage
  split
  · exact h.finishLine (h.close (h.weaken hs))
  · exact h.weaken hs

/-! ### The line -/

theorem takeHalt (tag : Byte) (hs : Q s) : Q (takeHalt tag s) := by
  unfold Machine.takeHalt
  split
  · exact h.congr_Q (offerHaltReply_same ..) (h.fault _ _ _ hs)
  · exact h.congr_Q (offerHaltReply_same ..) hs

theorem acceptKept (f : InFrame) (held : List Byte) (hs : Q s) : Q (acceptKept f held s).1 := by
  unfold Machine.acceptKept
  split
  · split
    · exact h.congr_Q (rejectFrame_same s .length) hs
    · split
      · exact h.takeHalt _ hs
      · exact h.coreReset hs
  · split
    · exact h.discarded _ hs
    · exact h.congr_Q (appendInbound_same s f) hs

theorem takeChar (b : Byte) (hs : Q s) : Q (takeChar b s).1 := by
  have hunting (a : Assembler) : Q (setAssembler a s) := h.congr_Q (setAssembler_same s a) hs
  unfold Machine.takeChar
  split
  · split
    · exact hunting _
    · exact hs
  · unfold extendFrame
    split
    · exact h.congr_Q (rejectFrame_same s .length) hs
    · split
      · unfold completeFrame
        split
        · exact h.congr_Q (rejectFrame_same s .crc) hs
        · split
          · exact h.acceptKept _ _ (hunting _)
          · exact hunting _
      · exact hunting _

theorem takeChars (fuel : Nat) (bytes : List Byte) (hs : Q s) : Q (takeChars fuel bytes s) := by
  induction fuel generalizing bytes s with
  | zero => exact hs
  | succ fuel ih =>
    cases bytes with
    | nil => exact hs
    | cons b rest =>
      have taken := h.takeChar b hs
      unfold Machine.takeChars
      split <;> simp_all

theorem onChar (b : Byte) (hs : Q s) : Q (onChar b s) :=
  h.congr_Q (finishReception_same _) (h.takeChars _ _ (h.congr_Q (markChar_same s) hs))

theorem rejectAndSearch (trouble : LinkTrouble) (hs : Q s) : Q (rejectAndSearch trouble s) := by
  unfold Machine.rejectAndSearch
  split
  · exact hs
  · exact h.takeChars _ _ (h.congr_Q (rejectFrame_same s trouble) hs)

theorem onGapTimer (hs : Q s) : Q (onGapTimer s) := by
  unfold Machine.onGapTimer
  split
  · exact h.congr_Q (finishReception_same _) (h.rejectAndSearch _ (h.congr_Q (advanceTo_same s _) hs))
  · exact hs

theorem charEndsAt (time : Nat) (hs : Q s) : Q (charEndsAt time s) := by
  have expire (fuel : Nat) {t : State} (ht : Q t) : Q (expireGaps time fuel t) := by
    induction fuel generalizing t with
    | zero => exact ht
    | succ fuel ih =>
      unfold expireGaps
      split
      · exact ih (h.onGapTimer ht)
      · exact ht
  exact h.congr_Q (advanceTo_same _ time) (expire _ hs)

theorem onFrameReject (trouble : LineTrouble) (hs : Q s) : Q (onFrameReject trouble s) := by
  have marked := h.congr_Q (markChar_same s) hs
  cases trouble with
  | length len => exact h.onChar len hs
  | framing => exact h.congr_Q (finishReception_same _) (h.rejectAndSearch _ marked)
  | lineBreak =>
    refine h.congr_Q (finishReception_same _) ?_
    unfold rejectAndDrop
    split
    · exact marked
    · exact h.congr_Q (rejectFrame_same _ _) marked

/-! ### Resets and JAM -/

theorem beginHold (cause : ResetCause) (hs : P s) : Q (beginHold cause s) := by
  unfold Machine.beginHold
  split
  · exact h.weaken hs
  · exact h.fullReset _ _ _ _

theorem endHold (rate1 rate0 : Bool) (addr1 addr0 : StrapLevel) (hs : P s) : Q (endHold rate1 rate0 addr1 addr0 s) := by
  unfold Machine.endHold
  split
  · exact h.congr_Q (announceStart_same ..) (h.fullReset ..)
  · exact h.weaken hs

theorem onJamRise (hs : P s) : Q (onJamRise s) :=
  h.finishLine (h.fault _ _ _ (h.congr_Q (raiseNotice_same s .jam _) (h.weaken hs)))

/-! ### Every command -/

/-- What the events keep, every command keeps. -/
theorem exec (c : Instr) {t : State} (hs : P s) (run : exec c s = .next t) : Q t := by
  have row (kind : Option RequestKind) : Q (Machine.whenRunning (Machine.serve kind (Machine.effectOf kind)) s) :=
    h.whenRunning hs (h.serve kind)
  have char (b : Byte) (time : Nat) : Q (Machine.whenRunning (fun s => Machine.onChar b (Machine.charEndsAt time s)) s) :=
    h.whenRunning hs fun hs => h.onChar b (h.charEndsAt time (h.weaken hs))
  have edge (f : State → State) (time : Nat) (hf : ∀ {s}, s.lotOpen = true → P s → Q (f s)) :
      Q (Machine.whenRunning (fun s => Machine.inLot f (Machine.advanceTo time s)) s) :=
    h.whenRunning hs fun hs => h.inLot (h.advanceTo time hs) hf
  cases c <;> cases run
  case forwardIndex time home => exact edge _ time (h.onForwardIndex home)
  case reverseIndex time => exact edge _ time h.onReverseIndex
  case checkSample check => exact h.whenRunning hs fun hs => h.inLot hs (h.onCheckSample check)
  case fireDelayExpiry n => exact h.whenRunning hs (h.onFireDelayExpiry n)
  case pulseEnd n => exact h.whenRunning hs (h.onPulseEnd n)
  case ack time n => exact edge _ time fun _ => h.onAck n
  case ackLimitExpiry n => exact h.whenRunning hs (h.onAckLimitExpiry n)
  case drop time n => exact edge _ time fun _ => h.onDrop n
  case flightMaxMiss n => exact h.whenRunning hs fun hs => h.inLot hs fun _ => h.onFlightMaxMiss n
  case jamRise time =>
    exact h.whenRunning (h.congr_P (s := s) ⟨rfl, rfl, rfl, rfl⟩ hs) fun hs => h.onJamRise (h.advanceTo time hs)
  case jamFall time =>
    exact h.whenRunning (h.congr_P (s := s) ⟨rfl, rfl, rfl, rfl⟩ hs) fun hs => h.weaken (h.advanceTo time hs)
  case powerOn => exact h.beginHold _ hs
  case supplyLow => exact h.beginHold _ hs
  case external => exact h.beginHold _ hs
  case resetHoldEnd rate1 rate0 addr1 addr0 => exact h.endHold rate1 rate0 addr1 addr0 hs
  case frameReject time trouble =>
    exact h.whenRunning hs fun hs => h.onFrameReject trouble (h.charEndsAt time (h.weaken hs))
  case gapTimer => exact h.whenRunning hs fun hs => h.onGapTimer (h.weaken hs)
  case frameComplete time b => exact char b time
  case characterReceived time b => exact char b time
  case halt tag => exact h.whenRunning hs fun hs => h.finishLine (h.takeHalt tag (h.weaken hs))
  case coreReset => exact h.whenRunning hs fun hs => h.coreReset (h.weaken hs)
  case meas => exact row (some .meas)
  case statusQuery => exact row (some .statusQuery)
  case pocketQuery => exact row (some .pocketQuery)
  case outletQuery => exact row (some .outletQuery)
  case tableWrite => exact row (some .tableWrite)
  case tableRead => exact row (some .tableRead)
  case tableDiscard => exact row (some .tableDiscard)
  case tableCommit => exact row (some .tableCommit)
  case lotStart => exact row (some .lotStart)
  case lotEnd => exact row (some .lotEnd)
  case lotAbort => exact row (some .lotAbort)
  case outletReset => exact row (some .outletReset)
  case clearFault => exact row (some .clearFault)
  case noticeAck => exact row (some .noticeAck)
  case noticeMask => exact row (some .noticeMask)
  case nodeAssign => exact row (some .nodeAssign)
  case unknownKind => exact row none
  case transmissionEnd => exact h.whenRunning hs h.onTransmissionEnd
  case urgentReply => exact h.whenRunning hs fun hs => h.congr_Q (onUrgentReply_same _) (h.weaken hs)
  case summaryStage => exact h.whenRunning hs h.onSummaryStage
  case notice => exact h.whenRunning hs fun hs => h.congr_Q (onNotice_same _) (h.weaken hs)

/-- What the events keep, every step keeps. -/
theorem step {t : State} (hs : P s) (run : step s = .next t) : Q t := by
  unfold Machine.step at run
  split at run
  · next c rest _ => exact h.exec (s := { s with pending := rest }) c (h.congr_P (s := s) ⟨rfl, rfl, rfl, rfl⟩ hs) run
  · cases run
    exact h.congr_Q (idle_same s) (h.weaken hs)

end EventsKeep

end Sys2Proof.Machine

/-! The ranges of the counters (R51, R102, R146, R150): each operation of the blocks keeps them. -/

namespace Sys2Proof.Machine

/-- The counters of one outlet record are in their ranges (R51). -/
def Outlet.inRange (o : Outlet) : Prop :=
  o.committed ≤ Config.committedMax ∧ o.missRun ≤ Config.missRunMax ∧ o.lotTotal ≤ Config.countMax

theorem countUp_le (n : Nat) : countUp n ≤ Config.countMax := Nat.min_le_right ..

namespace CounterLaw

variable {s t : State}

/-! ### Changes by block -/

/-- A change of outlet records that keeps each in its range. -/
theorem of_outlets (h : CounterLaw s) (sup : t.sup = s.sup)
    (outlets : ∀ n : Fin 16, s.outlets[n].inRange → t.outlets[n].inRange) : CounterLaw t where
  present := sup ▸ h.present
  unaccounted := sup ▸ h.unaccounted
  recovered := sup ▸ h.recovered
  strays := sup ▸ h.strays
  outlets n := outlets n (h.outlets n)
  index := sup ▸ h.index

theorem congr (h : CounterLaw s) (sup : t.sup = s.sup) (outlets : t.outlets = s.outlets) : CounterLaw t :=
  h.of_outlets sup fun n hn => by rwa [outlets]

theorem of_sameBlocks (same : SameBlocks s t) (h : CounterLaw s) : CounterLaw t := h.congr same.sup same.outlets

theorem modOutlet (n : Fin 16) {f : Outlet → Outlet} (hf : ∀ o : Outlet, o.inRange → (f o).inRange)
    (h : CounterLaw s) : CounterLaw (modOutlet n f s) :=
  h.of_outlets rfl fun m hm => by
    rw [Fin.getElem_fin, modOutlet_get]
    split
    · exact hf _ hm
    · exact hm

theorem mapOutlets {f : Fin 16 → Outlet → Outlet} (hf : ∀ n (o : Outlet), o.inRange → (f n o).inRange)
    (h : CounterLaw s) : CounterLaw (mapOutlets f s) :=
  h.of_outlets rfl fun m hm => by
    rw [Fin.getElem_fin, mapOutlets_get]
    exact hf _ _ hm

/-- A change of the Supervisor's record that leaves its counters and the clearance count. -/
theorem of_sup (h : CounterLaw s) (outlets : t.outlets = s.outlets) (present : t.sup.present = s.sup.present)
    (unaccounted : t.sup.unaccounted = s.sup.unaccounted) (recovered : t.sup.recovered = s.sup.recovered)
    (strays : t.sup.strays = s.sup.strays) (clearance : t.sup.clearance = s.sup.clearance) : CounterLaw t where
  present := present ▸ h.present
  unaccounted := unaccounted ▸ h.unaccounted
  recovered := recovered ▸ h.recovered
  strays := strays ▸ h.strays
  outlets n := outlets ▸ h.outlets n
  index := clearance ▸ h.index

/-- The clearance record goes, and the counters stay. -/
theorem withoutClearance (h : CounterLaw s) (outlets : t.outlets = s.outlets) (present : t.sup.present = s.sup.present)
    (unaccounted : t.sup.unaccounted = s.sup.unaccounted) (recovered : t.sup.recovered = s.sup.recovered)
    (strays : t.sup.strays = s.sup.strays) (clearance : t.sup.clearance = none) : CounterLaw t where
  present := present ▸ h.present
  unaccounted := unaccounted ▸ h.unaccounted
  recovered := recovered ▸ h.recovered
  strays := strays ▸ h.strays
  outlets n := outlets ▸ h.outlets n
  index := by simp [clearance]

/-- All counters of the Supervisor are 0 and there is no clearance record. -/
theorem of_zero (present : s.sup.present = 0) (unaccounted : s.sup.unaccounted = 0) (recovered : s.sup.recovered = 0)
    (strays : s.sup.strays = 0) (clearance : s.sup.clearance = none)
    (outlets : ∀ n : Fin 16, s.outlets[n].inRange) : CounterLaw s where
  present := by simp [present]
  unaccounted := by simp [unaccounted]
  recovered := by simp [recovered]
  strays := by simp [strays]
  outlets := outlets
  index := by simp [clearance]

theorem modRing (k : Nat) (f : PocketRecord → PocketRecord) (h : CounterLaw s) : CounterLaw (modRing k f s) :=
  h.congr rfl rfl

theorem modPlace (p : Place) (f : PocketRecord → PocketRecord) (h : CounterLaw s) : CounterLaw (modPlace p f s) :=
  h.congr (by simp) (by simp)

theorem raiseNotice (c : Condition) (detail : Nat) (h : CounterLaw s) : CounterLaw (raiseNotice c detail s) :=
  of_sameBlocks (raiseNotice_same s c detail) h

/-! ### Shared operations -/

theorem endSlots (h : CounterLaw s) : CounterLaw (endSlots s) := h.mapOutlets fun _ _ ho => ho

theorem stopOutlets (h : CounterLaw s) : CounterLaw (stopOutlets s) := h.mapOutlets fun _ _ ho => ho

theorem forget (name : RecordName) (h : CounterLaw s) : CounterLaw (forget name s) := h.mapOutlets fun _ _ ho => ho

theorem release (r : PocketRecord) (h : CounterLaw s) : CounterLaw (release r s) := by
  unfold Machine.release
  split
  · exact forget _ (modOutlet _ (fun _ ho => ho) h)
  · exact h.forget _

theorem releaseIfDecided (r : PocketRecord) (h : CounterLaw s) : CounterLaw (releaseIfDecided r s) := by
  unfold Machine.releaseIfDecided
  split
  · exact h.release r
  · exact h

/-- R100: a booking holds `unaccounted` at its largest value. -/
theorem book (pocket : Nat) (report : SortReport) (h : CounterLaw s) : CounterLaw (book pocket report s) :=
  { h with unaccounted := countUp_le _ }

theorem bookRecord (r : PocketRecord) (pocket : Nat) (h : CounterLaw s) : CounterLaw (bookRecord r pocket s) := h.book _ _

theorem raiseFault (code : FaultCode) (pocket : Nat) (seq : Option Nat) (h : CounterLaw s) :
    CounterLaw (raiseFault code pocket seq s) := by
  have halted (ret : RunState) (e : FaultEntry) : CounterLaw (enterHalted ret e s) :=
    (endSlots (h.of_sup (t := { s with sup := { s.sup with
      engine := .halted, returnState := some ret, faults := { s.sup.faults with first := some e } } })
      rfl rfl rfl rfl rfl rfl)).raiseNotice _ _
  unfold Machine.raiseFault
  split
  · exact halted _ _
  · exact halted _ _
  · exact h.of_sup rfl rfl rfl rfl rfl rfl
  · exact h
  · exact h

theorem discard (reason : Discard) (h : CounterLaw s) : CounterLaw (discard reason s) :=
  (h.of_sup (t := { s with sup := { s.sup with lastDiscard := some reason } }) rfl rfl rfl rfl rfl rfl).raiseNotice _ _

/-! ### Clearance -/

theorem setStage (stage : Stage) (h : CounterLaw s) : CounterLaw (setStage stage s) where
  present := h.present
  unaccounted := h.unaccounted
  recovered := h.recovered
  strays := h.strays
  outlets := h.outlets
  index c hc := by
    obtain ⟨before, hb, rfl⟩ := Option.map_eq_some_iff.mp hc
    exact h.index before hb

/-- R150: the clearance count holds at ±65,535. -/
theorem countIndex (by_ : Int) (h : CounterLaw s) : CounterLaw (countIndex by_ s) where
  present := h.present
  unaccounted := h.unaccounted
  recovered := h.recovered
  strays := h.strays
  outlets := h.outlets
  index c hc := by
    obtain ⟨before, hb, rfl⟩ := Option.map_eq_some_iff.mp hc
    simp only [Config.indexCountMax]
    omega

theorem closeTracker (h : CounterLaw s) : CounterLaw (closeTracker s) := h.congr rfl rfl

theorem closeLot (kind : EndKind) (h : CounterLaw s) : CounterLaw (closeLot kind s) := by
  have sent := of_sameBlocks (enqueue_same s 0 (.lotSummary (s.lotSummary kind))) h
  have stopped := sent.stopOutlets.closeTracker
  exact raiseNotice _ _ (stopped.withoutClearance rfl rfl rfl rfl rfl rfl)

theorem summaryStep (h : CounterLaw s) : CounterLaw (summaryStep s) := by
  unfold Machine.summaryStep
  split
  · exact h.closeLot _
  · exact h

theorem advanceClearance (h : CounterLaw s) : CounterLaw (advanceClearance s) := by
  have staged (c : Prop) [Decidable c] (stage : Stage) {t : State} (ht : CounterLaw t) :
      CounterLaw (if c then Machine.setStage stage t else t) := by
    split
    · exact ht.setStage stage
    · exact ht
  exact summaryStep (staged _ _ (staged _ _ (staged _ _ h)))

/-! ### Fires -/

theorem recordFire (n : Fin 16) (k : Nat) (r : PocketRecord) (h : CounterLaw s) : CounterLaw (recordFire n k r s) :=
  modRing _ _ (modOutlet n (fun _ ho => ho) h)

theorem backlog (n : Fin 16) (name : RecordName) (h : CounterLaw s) : CounterLaw (backlog n name s) := by
  have freed : CounterLaw (Machine.modOutlet n (fun o => { o with slot := .free }) s) := h.modOutlet n fun _ ho => ho
  unfold Machine.backlog
  dsimp only
  split
  · split
    · split
      · exact (freed.releaseIfDecided _).modRing _ _
      · exact freed
    · exact freed
  · exact freed

theorem beginFire (n : Fin 16) (name : RecordName) (h : CounterLaw s) : CounterLaw (beginFire n name s) := by
  have freed : CounterLaw (Machine.modOutlet n (fun o => { o with slot := .free }) s) := h.modOutlet n fun _ ho => ho
  unfold Machine.beginFire
  dsimp only
  split
  · split
    · split
      · split
        · exact recordFire _ _ _ (modOutlet n (fun _ ho => ho) freed)
        · exact freed.modOutlet n fun _ ho => ho
      · exact freed
    · exact freed
  · exact freed

theorem fireTests (n : Fin 16) (name : RecordName) (h : CounterLaw s) : CounterLaw (fireTests n name s) := by
  unfold Machine.fireTests
  split
  · exact h.backlog n name
  · split
    · exact h.beginFire n name
    · exact h.modOutlet n fun _ ho => ho

theorem retestDue (n : Fin 16) (h : CounterLaw s) : CounterLaw (retestDue n s) := by
  unfold Machine.retestDue
  split
  · split
    · exact h.fireTests n _
    · exact h
  · exact h
  · exact h

theorem startDelay (n : Fin 16) (name : RecordName) (fireDelay : Nat) (h : CounterLaw s) :
    CounterLaw (startDelay n name fireDelay s) := by
  unfold Machine.startDelay
  split
  · exact h.fireTests n name
  · exact h.modOutlet n fun _ ho => ho

theorem answerStrobe (n : Fin 16) (claim : Option RecordName) (h : CounterLaw s) : CounterLaw (answerStrobe n claim s) := by
  have quiet : CounterLaw (Machine.modOutlet n (fun o => { o with drive := .quiet }) s) := h.modOutlet n fun _ ho => ho
  unfold Machine.answerStrobe
  dsimp only
  split
  · split
    · split
      · split
        · exact quiet.recordFire _ _ _
        · exact quiet
      · exact quiet
    · exact quiet
  · exact quiet

/-! ### Outlet faults and misses -/

theorem strandClaim (claim : Option RecordName) (h : CounterLaw s) : CounterLaw (strandClaim claim s) := by
  rcases strandClaim_cases claim s with e | ⟨_, k, r, _, _, _, _, e⟩
  · rwa [e]
  · rw [e]
    exact (h.release r).modRing _ _

theorem strandSlot (n : Fin 16) (h : CounterLaw s) : CounterLaw (strandSlot n s) := by
  have freed : CounterLaw (Machine.modOutlet n (fun o => { o with slot := .free }) s) := h.modOutlet n fun _ ho => ho
  rcases strandSlot_cases n s with ⟨_, e⟩ | ⟨_, _, e | ⟨k, r, _, _, _, e⟩⟩
  · rwa [e]
  · rwa [e]
  · rw [e]
    exact (freed.release r).modRing _ _

theorem faultOutlet (n : Fin 16) (h : CounterLaw s) : CounterLaw (faultOutlet n s) := by
  unfold Machine.faultOutlet
  split
  · exact h.strandSlot n
  · exact strandSlot n (raiseNotice _ _ (modOutlet n (fun _ ho => ho) h))

/-- R86: the miss run holds at 15. -/
theorem accountMiss (n : Fin 16) (h : CounterLaw s) : CounterLaw (accountMiss n s) := by
  have missed : CounterLaw (Machine.modOutlet n Outlet.miss s) :=
    h.modOutlet n fun _ ⟨committed, _, lotTotal⟩ => ⟨committed, Nat.min_le_right .., lotTotal⟩
  unfold Machine.accountMiss
  dsimp only
  split
  · exact missed.faultOutlet n
  · exact missed

theorem missEntryOf (name : RecordName) (h : CounterLaw s) : CounterLaw (missEntryOf name s) := by
  unfold Machine.missEntryOf
  split
  · exact accountMiss _ (modOutlet _ (fun _ ho => ho) h)
  · exact h

theorem missFate (n : Fin 16) (e : Entry) (h : CounterLaw s) : CounterLaw (missFate n e s) := by
  unfold Machine.missFate
  split
  · split
    · split
      · exact (h.book _ _).modRing _ _
      · exact h.modRing _ _
    · exact h.modRing _ _
  · split
    · exact modPlace (.stack _) _ (h.book _ _)
    · exact h.modPlace (.stack _) _
  · split
    · exact h.book _ _
    · exact h

theorem missHead (n : Fin 16) (e : Entry) (rest : List Entry) (h : CounterLaw s) : CounterLaw (missHead n e rest s) :=
  missFate n e (accountMiss n (modOutlet n (fun _ ho => ho) h))

/-! ### Confirmations -/

/-- R60: committed and the lot total hold at their largest values, and the miss run is 0. -/
theorem confirm_inRange (counted : Bool) (capacity : Nat) (rest : List Entry) {o : Outlet} (ho : o.inRange) :
    (o.confirm counted capacity rest).inRange := by
  refine ⟨Nat.min_le_right .., Nat.zero_le _, ?_⟩
  simp only [Outlet.confirm]
  split
  · exact countUp_le _
  · exact ho.2.2

theorem countRecovered (counted : Bool) (h : CounterLaw s) : CounterLaw (countRecovered counted s) where
  present := h.present
  unaccounted := h.unaccounted
  recovered := by
    unfold Machine.countRecovered
    dsimp only
    split
    · exact h.recovered
    · exact countUp_le _
  strays := h.strays
  outlets := h.outlets
  index := h.index

theorem raiseFull (n : Fin 16) (e : Entry) (cfg : OutletEntry) (before : Nat) (h : CounterLaw s) :
    CounterLaw (raiseFull n e cfg before s) := by
  have noticed : CounterLaw (if before + 1 = cfg.capacity then Machine.raiseNotice .outletFull n.val s else s) := by
    split
    · exact h.raiseNotice _ _
    · exact h
  unfold Machine.raiseFull
  dsimp only
  split
  · exact noticed.raiseFault _ _ _
  · exact noticed

theorem confirmRecord (n : Fin 16) (e : Entry) (sweep : Bool) (h : CounterLaw s) : CounterLaw (confirmRecord n e sweep s) :=
  h.congr (by simp) (by simp)

theorem strayDrop (n : Fin 16) (h : CounterLaw s) : CounterLaw (strayDrop n s) := { h with strays := countUp_le _ }

theorem takeDrop (n : Fin 16) (cfg : OutletEntry) (h : CounterLaw s) : CounterLaw (takeDrop n cfg s) := by
  unfold Machine.takeDrop
  split
  · split
    · exact h.strayDrop n
    · exact confirmRecord _ _ _ (raiseFull _ _ _ _ (countRecovered _ (modOutlet n (fun _ => confirm_inRange _ _ _) h)))
  · exact h.strayDrop n

/-! ### The dial -/

theorem finalVerdict (k : Nat) (v : Verdict) (reason : Reason) (h : CounterLaw s) :
    CounterLaw (finalVerdict k v reason s) :=
  modRing _ _ (modOutlet _ (fun _ ho => ho) h)

theorem cancelCheck (h : CounterLaw s) : CounterLaw (cancelCheck s) := by
  have stopped : CounterLaw (stopCheckTimer s) := h.congr rfl rfl
  have prepared (r : PocketRecord) : CounterLaw (prepareUnchecked r (stopCheckTimer s)) := by
    unfold prepareUnchecked
    split
    · exact stopped.release r
    · exact stopped.missEntryOf _
    all_goals exact stopped
  unfold Machine.cancelCheck handleUnchecked
  split
  · split
    · split
      · exact stopped
      · exact ((prepared _).modRing _ _).raiseFault _ _ _
    · exact stopped
  · exact h

theorem retain (r : PocketRecord) (counted : Bool) (h : CounterLaw s) : CounterLaw (retain r counted s) :=
  (h.modRing _ _).raiseFault _ _ _

theorem samplePresent (r : PocketRecord) (h : CounterLaw s) : CounterLaw (samplePresent r s) := by
  unfold Machine.samplePresent
  split
  case h_6 => exact (h.missEntryOf _).retain _ _
  case h_8 => exact (h.release r).retain _ _
  case h_10 => exact h
  all_goals exact h.retain _ _

theorem sampleClear (r : PocketRecord) (h : CounterLaw s) : CounterLaw (sampleClear r s) := by
  have settled {t : State} (ht : CounterLaw t) (phase : Phase) :
      CounterLaw (if r.counted then bookAtCheck r t else Machine.modRing s.z (.settle phase) t) := by
    split
    · exact (ht.bookRecord _ _).modRing _ _
    · exact ht.modRing _ _
  unfold Machine.sampleClear
  split
  case h_7 | h_9 | h_10 => exact settled h _
  case h_8 => exact settled (h.release r) _
  all_goals exact h

theorem takeSample (check : Bool) (h : CounterLaw s) : CounterLaw (takeSample check s) := by
  unfold Machine.takeSample
  split
  · split
    · exact (h.modRing _ _).samplePresent _
    · exact (h.modRing _ _).sampleClear _
  · exact h

theorem setRing (ring : List PocketRecord) (h : CounterLaw s) : CounterLaw (setRing ring s) := h.congr rfl rfl

theorem push (r : PocketRecord) (h : CounterLaw s) : CounterLaw (push r s) := h.congr rfl rfl

theorem moveUp (h : CounterLaw s) : CounterLaw (moveUp s) := by
  have retired (r : PocketRecord) : CounterLaw (retire r (Machine.setRing (s.tracker.ring.take s.z) s)) := by
    unfold retire
    split
    · refine push _ ?_
      split
      · exact bookRecord _ _ (h.setRing _)
      · exact h.setRing _
    · exact push _ (h.setRing _)
  have made {t : State} (ht : CounterLaw t) (phase : Phase) : CounterLaw (moveLoadPocket 1 (newRecord phase t)) :=
    ht.congr (by simp) (by simp)
  unfold Machine.moveUp
  dsimp only
  split
  · exact made (retired _) _
  · exact made (h.setRing _) _

theorem compareHome (home : Bool) (h : CounterLaw s) : CounterLaw (compareHome home s) := by
  unfold Machine.compareHome
  split
  · exact h
  · refine setRing _ (List.foldlRecOn (motive := CounterLaw) _ _ ?_ fun s hs r _ => ?_)
    · exact (h.raiseFault _ _ _).congr rfl rfl
    · split
      · exact hs.releaseIfDecided r
      · exact hs

theorem verdictDeadline (st : Station) (h : CounterLaw s) : CounterLaw (verdictDeadline st s) := by
  unfold Machine.verdictDeadline
  split
  · split
    · split
      · exact h.finalVerdict _ _ _
      · exact h
    · exact h
  · exact h

theorem deadlines (h : CounterLaw s) : CounterLaw (deadlines s) :=
  ((h.congr (t := contactDeadline s) (by simp) (by simp)).verdictDeadline _).verdictDeadline _

theorem pass (n : Fin 16) (h : CounterLaw s) : CounterLaw (pass n s) := by
  unfold Machine.pass
  split
  · split
    · split
      · exact (h.release _).modRing _ _
      · exact h
    · exact h
  · exact h

theorem passes (h : CounterLaw s) : CounterLaw (passes s) :=
  endSlots (List.foldlRecOn (motive := CounterLaw) _ _ h fun _ hs n _ => hs.pass n)

theorem arrival (n : Fin 16) (e : OutletEntry) (r : PocketRecord) (h : CounterLaw s) : CounterLaw (arrival n e r s) := by
  unfold Machine.arrival
  split
  · exact h
  · split
    · exact h.startDelay _ _ _
    · exact h.startDelay _ _ _
    · exact (h.release r).modRing _ _
    · exact h

theorem handOff (n : Fin 16) (h : CounterLaw s) : CounterLaw (handOff n s) := by
  unfold Machine.handOff
  split
  · split
    · split
      · exact h
      · split
        · split
          · exact h.startDelay _ _ _
          · exact h
        · split
          · exact h.arrival _ _ _
          · exact h
    · exact h
  · exact h

theorem arrivals (h : CounterLaw s) : CounterLaw (arrivals s) :=
  List.foldlRecOn (motive := CounterLaw) _ _ h fun _ hs n _ => hs.handOff n

theorem forwardParts (home : Bool) (h : CounterLaw s) : CounterLaw (forwardParts home s) :=
  ((h.cancelCheck.moveUp.compareHome home).deadlines.passes.arrivals).congr rfl rfl

theorem discardBottom (r : PocketRecord) (h : CounterLaw s) : CounterLaw (discardBottom r s) := by
  unfold Machine.discardBottom
  dsimp only
  split
  · exact (h.releaseIfDecided r).bookRecord _ _
  · exact h.releaseIfDecided r

theorem reverseParts (h : CounterLaw s) : CounterLaw (reverseParts s) := by
  have rest {t : State} (underflow : Bool) (ht : CounterLaw t) :
      CounterLaw (raiseGap underflow (Machine.endSlots (moveLoadPocket (-1) (popToZ t)))) :=
    congr (endSlots (ht.congr (t := moveLoadPocket (-1) (popToZ t)) (by simp) (by simp))) (by simp) (by simp)
  unfold Machine.reverseParts
  dsimp only
  split
  · exact rest _ (setRing _ (h.cancelCheck.discardBottom _))
  · exact rest _ h.cancelCheck

/-! ### MEAS -/

theorem addResult (k : Nat) (m : Meas) (h : CounterLaw s) : CounterLaw (addResult k m s) := h.modRing _ _

/-- R36: `present` holds at its largest value. -/
theorem countPart (k : Nat) (h : CounterLaw s) : CounterLaw (countPart k s) := { h with present := countUp_le _ }

theorem contactOpen (k : Nat) (status : Status) (h : CounterLaw s) : CounterLaw (contactOpen k status s) := by
  cases status with
  | part => exact (h.countPart k).modRing _ _
  | noPart => exact h.modRing _ _
  | contactFail => exact (h.countPart k).finalVerdict _ _ _
  | ok | overHigh | overLow | meterError => exact h

theorem contactVoid (k : Nat) (status : Status) (h : CounterLaw s) : CounterLaw (contactVoid k status s) := by
  cases status with
  | part | contactFail => exact (h.countPart k).finalVerdict _ _ _
  | noPart | ok | overHigh | overLow | meterError => exact h

theorem classify (k : Nat) (d : Int) (h : CounterLaw s) : CounterLaw (classify k d s) := by
  unfold Machine.classify
  split
  · exact h.finalVerdict _ _ _
  · split
    · exact h.modRing _ _
    · exact h.finalVerdict _ _ _

theorem valueResult (k : Nat) (m : Meas) (h : CounterLaw s) : CounterLaw (valueResult k m s) := by
  unfold Machine.valueResult
  split
  · unfold valueOk
    dsimp only
    split
    · exact (h.modRing _ _).finalVerdict _ _ _
    · exact (h.modRing _ _).classify _ _
  · exact h.finalVerdict _ _ _
  · exact h.finalVerdict _ _ _
  · exact h.finalVerdict _ _ _
  all_goals exact h

theorem recheckResult (k : Nat) (r : PocketRecord) (m : Meas) (h : CounterLaw s) : CounterLaw (recheckResult k r m s) := by
  unfold Machine.recheckResult
  split
  · unfold judgeDrift
    dsimp only
    split
    · exact (h.modRing _ _).finalVerdict _ _ _
    · split
      · exact (h.modRing _ _).finalVerdict _ _ _
      · exact h.modRing _ _
  · exact h.finalVerdict _ _ _
  · exact h.finalVerdict _ _ _
  · exact h.finalVerdict _ _ _
  all_goals exact h

theorem applyResult (k : Nat) (r : PocketRecord) (m : Meas) (h : CounterLaw s) : CounterLaw (applyResult k r m s) := by
  unfold Machine.applyResult
  split
  · split
    · exact (h.addResult k m).contactOpen _ _
    · exact (h.addResult k m).contactVoid _ _
  · exact (h.addResult k m).valueResult _ _
  · exact (h.addResult k m).recheckResult _ _ _

theorem placeResult (m : Meas) (e : StationEntry) (h : CounterLaw s) : CounterLaw (placeResult m e s) := by
  unfold Machine.placeResult
  split
  · exact h.discard _
  · split
    · split
      · exact h.discard _
      · exact h.applyResult _ _ m
    · exact h

theorem takeMeas (f : InFrame) (h : CounterLaw s) : CounterLaw (takeMeas f s) := by
  unfold Machine.takeMeas
  split
  · exact h.discard _
  split
  · exact h.discard _
  split
  · exact h.discard _
  split
  · exact h.placeResult _ _
  · exact h.discard _

/-! ### Lots, tables and resets -/

theorem openLot (lotId loadPocket : Nat) (h : CounterLaw s) : CounterLaw (openLot lotId loadPocket s) :=
  of_zero rfl rfl rfl rfl rfl
    (mapOutlets (f := fun _ o => { o with lotTotal := 0 }) (fun _ _ ⟨committed, missRun, _⟩ =>
      ⟨committed, missRun, Nat.zero_le _⟩) h).outlets

theorem beginClearance (stage : Stage) (kind : RunKind) (h : CounterLaw s) : CounterLaw (beginClearance stage kind s) :=
  { h with
    index := fun c hc => by
      obtain rfl := Option.some.inj hc
      simp [Config.indexCountMax] }

theorem abandonRunOut (h : CounterLaw s) : CounterLaw (abandonRunOut s) := by
  refine List.foldlRecOn (motive := CounterLaw) _ _ h.endSlots fun s hs k _ => ?_
  unfold abandonRecord
  split
  · exact hs
  · split
    · exact ((hs.releaseIfDecided _).bookRecord _ _).modRing _ _
    · split
      · exact hs.modRing _ _
      · exact hs.modRing _ _
      · exact hs.modRing _ _
      all_goals exact hs

theorem abortRing (h : CounterLaw s) : CounterLaw (abortRing s) := by
  refine List.foldlRecOn (motive := CounterLaw) _ _ h fun s hs k _ => ?_
  unfold abortRecord
  split
  · split
    · exact (hs.bookRecord _ _).modRing _ _
    · exact hs
  · exact hs

theorem abortQueues (h : CounterLaw s) : CounterLaw (abortQueues s) := by
  refine List.foldlRecOn (motive := CounterLaw) _ _ h fun s hs n _ => ?_
  refine List.foldlRecOn (motive := CounterLaw) _ _ hs fun s hs e _ => ?_
  unfold abortEntry
  split
  · split
    · exact (hs.book _ _).modPlace _ _
    · exact hs.book _ _
  · exact hs

theorem abortBookings (h : CounterLaw s) : CounterLaw (abortBookings s) :=
  h.stopOutlets.abortRing.abortQueues.mapOutlets fun _ _ ho => ho

theorem abortClose (h : CounterLaw s) : CounterLaw (abortClose s) :=
  h.withoutClearance rfl rfl rfl rfl rfl rfl

theorem leaveHalted (h : CounterLaw s) : CounterLaw (leaveHalted s) := h.of_sup rfl rfl rfl rfl rfl rfl

theorem activate (h : CounterLaw s) : CounterLaw (activate s) := by
  have recommitted : CounterLaw (Machine.mapOutlets
      (fun n o => o.recommit (s.outletEntry n) (s.tables.staged.withLink.outlet n)) s) :=
    h.mapOutlets fun n o ⟨committed, missRun, lotTotal⟩ => by
      unfold Outlet.recommit
      split
      · exact ⟨committed, missRun, lotTotal⟩
      · exact ⟨Nat.zero_le _, Nat.zero_le _, lotTotal⟩
      · exact ⟨Nat.zero_le _, Nat.zero_le _, lotTotal⟩
      · exact ⟨committed, missRun, lotTotal⟩
  exact recommitted.of_sup rfl rfl rfl rfl rfl rfl

theorem emptyBin (n : Fin 16) (h : CounterLaw s) : CounterLaw (emptyBin n s) :=
  h.modOutlet n fun _ ho => ⟨Nat.zero_le _, Nat.zero_le _, ho.2.2⟩

theorem fullReset (cause : ResetCause) (held : Bool) (rate : BitRate) (address : Option (Fin 4)) (s : State) :
    CounterLaw (fullReset cause held rate address s) :=
  of_zero rfl rfl rfl rfl rfl fun n => by simp [Machine.fullReset, Outlet.afterReset, Outlet.inRange]

theorem coreReset (h : CounterLaw s) : CounterLaw (coreReset s) := by
  refine of_sameBlocks (announceStart_same _ _) (of_zero rfl rfl rfl rfl rfl fun n => ?_)
  have committed : s.outlets[(n : Nat)].committed ≤ Config.committedMax := (h.outlets n).1
  cases he : s.outletEntry n <;>
    simp [Outlet.afterCoreReset, he, Outlet.afterReset, Outlet.inRange, committed]

/-- Every event keeps the counters in their ranges. -/
theorem events : EventsKeep CounterLaw CounterLaw CounterLaw where
  congr_P := of_sameBlocks
  congr_R := of_sameBlocks
  congr_Q := of_sameBlocks
  weaken := id
  relax := id
  stages := advanceClearance
  close := summaryStep
  count := countIndex
  fault := raiseFault
  discarded := discard
  coreReset := coreReset
  fullReset cause held rate address := fullReset cause held rate address _
  forward home _ h := h.forwardParts home
  reverse _ h := h.reverseParts
  sample check _ h := takeSample check (h.congr (by simp) (by simp))
  delay n name _ _ h := h.fireTests n name
  pulse n _ _ h := retestDue n (modOutlet n (fun _ ho => ho) h)
  ack n _ claim _ h := (h.answerStrobe n claim).retestDue n
  ackLimit n _ claim _ h := retestDue n (faultOutlet n (strandClaim claim (modOutlet n (fun _ ho => ho) h)))
  drop n cfg _ h := h.takeDrop n cfg
  miss n e rest _ h := h.missHead n e rest
  meas f h := h.takeMeas f
  activate _ h := h.activate
  openLot lotId loadPocket _ h := h.openLot lotId loadPocket
  runOut _ h := h.beginClearance _ _
  abandon _ h := (h.beginClearance _ _).abandonRunOut
  abort _ h := h.abortBookings.abortClose
  resume _ h := h.leaveHalted
  emptyBin n h := h.emptyBin n

end CounterLaw

/-- Settles O6: every event keeps the counters in their ranges, and so every step does. -/
theorem counterLawIsKept : Obligations.CounterLawIsKept := fun _ _ h run => CounterLaw.events.step h run

end Sys2Proof.Machine

/-! The accounts of the parts (R54, R104): how each operation of the blocks moves reservations and counted parts between the
ring, the confirmation queues, the lot totals and `unaccounted`. -/

namespace Sys2Proof.Machine

/-! ### Sums over the outlets and counts over the ring -/

theorem modOutlet_outlet (n m : Fin 16) (f : Outlet → Outlet) (s : State) :
    (modOutlet n f s).outlets[m] = if n = m then f s.outlets[m] else s.outlets[m] := by
  simp only [Fin.getElem_fin, modOutlet_get, Fin.ext_iff]

theorem State.sumOutlets_eq_sum (s : State) (count : Outlet → Nat) :
    s.sumOutlets count = ∑ n : Fin 16, count s.outlets[n] := by
  rw [← List.sum_ofFn]
  rfl

theorem State.sumOutlets_congr {s t : State} {count : Outlet → Nat}
    (same : ∀ n : Fin 16, count t.outlets[n] = count s.outlets[n]) : t.sumOutlets count = s.sumOutlets count := by
  simp only [sumOutlets_eq_sum, same]

theorem State.sumOutlets_eq_zero {s : State} {count : Outlet → Nat} (zero : ∀ n : Fin 16, count s.outlets[n] = 0) :
    s.sumOutlets count = 0 := by
  simp only [sumOutlets_eq_sum, zero, Finset.sum_const_zero]

/-- The sums before and after a change of one outlet differ by what that outlet holds. -/
theorem State.sumOutlets_change {s t : State} {count : Outlet → Nat} (n : Fin 16)
    (others : ∀ m, m ≠ n → t.outlets[m] = s.outlets[m]) :
    t.sumOutlets count + count s.outlets[n] = s.sumOutlets count + count t.outlets[n] := by
  have rest : ∑ m ∈ Finset.univ.erase n, count t.outlets[m] = ∑ m ∈ Finset.univ.erase n, count s.outlets[m] :=
    Finset.sum_congr rfl fun m hm => by rw [others m (Finset.ne_of_mem_erase hm)]
  have hs := Finset.add_sum_erase Finset.univ (fun m : Fin 16 => count s.outlets[m]) (Finset.mem_univ n)
  have ht := Finset.add_sum_erase Finset.univ (fun m : Fin 16 => count t.outlets[m]) (Finset.mem_univ n)
  simp only [sumOutlets_eq_sum]
  omega

/-- The counts before and after a change of one record differ by that record. -/
theorem length_filter_modify {α : Type} (p : α → Bool) (l : List α) (k : Nat) (f : α → α) {a : α} (at_k : l[k]? = some a) :
    ((l.modify k f).filter p).length + (p a).toNat = (l.filter p).length + (p (f a)).toNat := by
  obtain ⟨inRange, rfl⟩ := List.getElem?_eq_some_iff.mp at_k
  have counted : p l[k] = true → 0 < l.countP p := fun h => List.countP_pos_iff.mpr ⟨_, l.getElem_mem inRange, h⟩
  rw [List.modify_eq_set_getElem?, at_k]
  simp only [Option.map_eq_map, Option.map_some, Option.getD_some, ← List.countP_eq_length_filter, List.countP_set inRange]
  cases h : p l[k] <;> cases p (f l[k]) <;> simp_all

theorem decidedCount_modRing {s : State} {k : Nat} {r : PocketRecord} (f : PocketRecord → PocketRecord)
    (at_k : s.tracker.ring[k]? = some r) (n : Fin 16) :
    (modRing k f s).decidedCount n + (r.decidedFor n).toNat = s.decidedCount n + ((f r).decidedFor n).toNat :=
  length_filter_modify (fun r : PocketRecord => r.decidedFor n) _ k f at_k

theorem standingCount_modRing {s : State} {k : Nat} {r : PocketRecord} (f : PocketRecord → PocketRecord)
    (at_k : s.tracker.ring[k]? = some r) :
    (modRing k f s).standingCount + r.standing.toNat = s.standingCount + (f r).standing.toNat :=
  length_filter_modify PocketRecord.standing _ k f at_k

/-- A change of the ring where no record stands changes nothing. -/
theorem modRing_of_none {s : State} {k : Nat} (f : PocketRecord → PocketRecord) (none : s.tracker.ring[k]? = none) :
    modRing k f s = s := by
  have : s.tracker.ring.modify k f = s.tracker.ring := by
    rw [List.modify_eq_set_getElem?, none]
    rfl
  simp [modRing, setRing, this]

/-- Counted entries of one queue. -/
def Outlet.countedEntries (o : Outlet) : Nat := (o.queue.filter Entry.counted).length

theorem Outlet.countedEntries_congr {o o' : Outlet} (queue : o'.queue = o.queue) :
    o'.countedEntries = o.countedEntries := by simp only [countedEntries, queue]

theorem State.accounted_eq (s : State) :
    s.accounted = s.sumOutlets Outlet.lotTotal + s.sup.unaccounted + s.standingCount + s.sumOutlets Outlet.countedEntries :=
  rfl

/-! ### The phases that reserve and stand -/

theorem PocketRecord.decidedFor_eq_false {r : PocketRecord} (phase : r.phase ≠ .decided) (n : Fin 16) :
    r.decidedFor n = false := by simp [decidedFor, phase]

theorem PocketRecord.decidedFor_iff {r : PocketRecord} {n : Fin 16} :
    r.decidedFor n = true ↔ r.phase = .decided ∧ r.target.map Route.outlet = some n := by simp [decidedFor]

theorem PocketRecord.standing_of_stands {r : PocketRecord} (stands : r.phase.stands = true) : r.standing = r.counted := by
  simp [standing, stands]

theorem PocketRecord.standing_eq_false {r : PocketRecord} (stands : r.phase.stands = false) : r.standing = false := by
  simp [standing, stands]

/-- What a record's phase says of its counted flag (R4, R6). -/
structure PocketRecord.Flagged (r : PocketRecord) : Prop where
  uncounted : r.phase = .open ∨ r.phase = .void ∨ r.phase = .empty → r.counted = false
  counted : r.phase = .held ∨ r.phase = .decided → r.counted = true

/-- A record in a phase that says nothing of its counted flag. -/
theorem PocketRecord.Flagged.of_phase {r : PocketRecord}
    (phase : r.phase ≠ .open ∧ r.phase ≠ .void ∧ r.phase ≠ .empty ∧ r.phase ≠ .held ∧ r.phase ≠ .decided) : r.Flagged := by
  obtain ⟨notOpen, notVoid, notEmpty, notHeld, notDecided⟩ := phase
  exact ⟨by simp [notOpen, notVoid, notEmpty], by simp [notHeld, notDecided]⟩

/-! ### The ledger -/

/-- The balance of R104 while `parts` counted parts are in hand: taken from one place of the balance and not yet put in
another; a negative number when a part is put in a place before it is taken from another. -/
def State.Balanced (s : State) (parts : Int) : Prop := s.countersFree → (s.sup.present : Int) = s.accounted + parts

/-- The laws of R54 and R104 while `parts` counted parts are in hand. -/
structure Ledger (parts : Int) (s : State) : Prop where
  reserved : ∀ n : Fin 16, s.outlets[n].reserved = s.decidedCount n + s.outlets[n].queue.length
  capacity : ∀ (n : Fin 16) cfg, s.outletEntry n = some cfg → cfg.sweep = false →
    s.outlets[n].reserved = 0 ∨ s.outlets[n].committed + s.outlets[n].reserved ≤ cfg.capacity
  balance : s.Balanced parts

theorem State.balanced_zero_iff {s : State} : s.Balanced 0 ↔ (s.countersFree → s.sup.present = s.accounted) := by
  simp only [State.Balanced, Int.add_zero, Int.natCast_inj]

theorem ledger_zero_iff {s : State} : Ledger 0 s ↔ AccountLaw s :=
  ⟨fun h => ⟨h.reserved, h.capacity, State.balanced_zero_iff.mp h.balance⟩,
    fun h => ⟨h.reserved, h.capacity, State.balanced_zero_iff.mpr h.balance⟩⟩

/-- Every record of the ring agrees with its counted flag. -/
def State.flagged (s : State) : Prop := ∀ (k : Nat) (r : PocketRecord), s.tracker.ring[k]? = some r → r.Flagged

/-- Every record of the ring but the one at offset `k` agrees with its counted flag. -/
def State.flaggedBut (s : State) (k : Nat) : Prop := ∀ (j : Nat) (r : PocketRecord), j ≠ k → s.tracker.ring[j]? = some r → r.Flagged

/-- The outlet record keeps what the ledger reads of it. -/
structure Outlet.SameAccount (o o' : Outlet) : Prop where
  committed : o'.committed = o.committed
  reserved : o'.reserved = o.reserved
  lotTotal : o'.lotTotal = o.lotTotal
  queue : o'.queue = o.queue

/-- What the ledger reads is the same in both states. -/
structure SameAccount (s t : State) : Prop where
  ring : t.tracker.ring = s.tracker.ring
  active : t.tables.active = s.tables.active
  present : t.sup.present = s.sup.present
  unaccounted : t.sup.unaccounted = s.sup.unaccounted
  outlets : ∀ n : Fin 16, s.outlets[n].SameAccount t.outlets[n]

theorem Outlet.SameAccount.refl (o : Outlet) : o.SameAccount o := ⟨rfl, rfl, rfl, rfl⟩

theorem SameAccount.refl (s : State) : SameAccount s s := ⟨rfl, rfl, rfl, rfl, fun _ => .refl _⟩

theorem SameBlocks.account {s t : State} (h : SameBlocks s t) : SameAccount s t where
  ring := by rw [h.tracker]
  active := h.active
  present := by rw [h.sup]
  unaccounted := by rw [h.sup]
  outlets n := by
    rw [h.outlets]
    exact .refl _

theorem State.outletEntry_of_active {s t : State} (h : t.tables.active = s.tables.active) (n : Fin 16) :
    t.outletEntry n = s.outletEntry n := by simp [State.outletEntry, h]

theorem modOutlet_account {n : Fin 16} {f : Outlet → Outlet} (hf : ∀ o : Outlet, o.SameAccount (f o)) (s : State) :
    SameAccount s (modOutlet n f s) := by
  refine ⟨rfl, rfl, rfl, rfl, fun m => ?_⟩
  rw [modOutlet_outlet]
  split
  · exact hf _
  · exact .refl _

theorem mapOutlets_account {f : Fin 16 → Outlet → Outlet} (hf : ∀ n (o : Outlet), o.SameAccount (f n o)) (s : State) :
    SameAccount s (mapOutlets f s) := by
  refine ⟨rfl, rfl, rfl, rfl, fun m => ?_⟩
  rw [Fin.getElem_fin, Fin.getElem_fin, mapOutlets_get]
  exact hf _ _

theorem countUp_eq {n : Nat} (free : countUp n < Config.countMax) :
    countUp n = n + 1 ∧ n < Config.countMax := by
  unfold countUp at free ⊢
  omega

namespace State.Balanced

variable {s t : State} {parts left : Int}

theorem congr (same : SameAccount s t) (h : s.Balanced parts) : t.Balanced parts := by
  intro free
  have lotTotals := State.sumOutlets_congr fun n => (same.outlets n).lotTotal
  have entries := State.sumOutlets_congr fun n => Outlet.countedEntries_congr (same.outlets n).queue
  have freeBefore : s.countersFree :=
    ⟨same.present ▸ free.1, same.unaccounted ▸ free.2.1, fun n => (same.outlets n).lotTotal ▸ free.2.2 n⟩
  rw [same.present, h freeBefore, State.accounted_eq, State.accounted_eq, lotTotals, entries, same.unaccounted,
    State.standingCount, State.standingCount, same.ring]

/-- The ring and the counted entries change; the parts that leave them are taken in hand. -/
theorem of_ring (h : s.Balanced parts) (present : t.sup.present = s.sup.present)
    (unaccounted : t.sup.unaccounted = s.sup.unaccounted)
    (totals : ∀ n : Fin 16, t.outlets[n].lotTotal = s.outlets[n].lotTotal)
    (moved : (t.standingCount : Int) + t.sumOutlets Outlet.countedEntries + left =
      s.standingCount + s.sumOutlets Outlet.countedEntries + parts) : t.Balanced left := by
  intro free
  have lotTotals := State.sumOutlets_congr totals
  have balance := h ⟨present ▸ free.1, unaccounted ▸ free.2.1, fun n => totals n ▸ free.2.2 n⟩
  rw [State.accounted_eq] at balance ⊢
  rw [present, unaccounted, lotTotals]
  push_cast at balance ⊢
  omega

theorem modRing {k : Nat} {r : PocketRecord} {f : PocketRecord → PocketRecord} (h : s.Balanced parts)
    (at_k : s.tracker.ring[k]? = some r)
    (moved : ((f r).standing.toNat : Int) + left = r.standing.toNat + parts) : (modRing k f s).Balanced left := by
  have count := standingCount_modRing f at_k
  have entries : (Machine.modRing k f s).sumOutlets Outlet.countedEntries = s.sumOutlets Outlet.countedEntries := rfl
  exact h.of_ring rfl rfl (fun _ => rfl) (by omega)

/-- R100: a booking puts a part into `unaccounted`. -/
theorem book (pocket : Nat) (report : SortReport) (h : s.Balanced parts) : (book pocket report s).Balanced (parts - 1) := by
  intro free
  obtain ⟨present, unaccounted, totals⟩ := free
  obtain ⟨booked, below⟩ := countUp_eq (n := s.sup.unaccounted) unaccounted
  have balance := h ⟨present, below, totals⟩
  have counted : (Machine.book pocket report s).sup.unaccounted = s.sup.unaccounted + 1 := booked
  have same : (Machine.book pocket report s).sup.present = s.sup.present := rfl
  rw [State.accounted_eq] at balance ⊢
  rw [counted, same, balance]
  simp only [State.sumOutlets, State.standingCount, book_outlets, book_tracker]
  push_cast
  omega

end State.Balanced

namespace Ledger

variable {s t : State} {parts left : Int}

theorem congr (same : SameAccount s t) (h : Ledger parts s) : Ledger parts t where
  reserved n := by
    obtain ⟨_, reserved, _, queue⟩ := same.outlets n
    rw [reserved, queue, h.reserved n, State.decidedCount, State.decidedCount, same.ring]
  capacity n cfg entry sweep := by
    obtain ⟨committed, reserved, _, _⟩ := same.outlets n
    rw [committed, reserved]
    exact h.capacity n cfg (State.outletEntry_of_active same.active n ▸ entry) sweep
  balance := h.balance.congr same

/-- A change of one record that is DECIDED for no outlet before and after; its counted part is taken up or laid down. -/
theorem modRing {k : Nat} {r : PocketRecord} {f : PocketRecord → PocketRecord} (h : Ledger parts s)
    (at_k : s.tracker.ring[k]? = some r) (decided : ∀ n, (f r).decidedFor n = r.decidedFor n)
    (moved : ((f r).standing.toNat : Int) + left = r.standing.toNat + parts) : Ledger left (modRing k f s) where
  reserved n := by
    have count := decidedCount_modRing f at_k n
    have := h.reserved n
    rw [decided] at count
    simp only [modRing_outlets]
    omega
  capacity := h.capacity
  balance := h.balance.modRing at_k moved

theorem release_reserved {r : PocketRecord} (phase : r.phase = .decided) (s : State) (n : Fin 16) :
    (release r s).outlets[n].reserved = s.outlets[n].reserved - (r.decidedFor n).toNat := by
  have target : r.target.map (fun t => (t.outlet : Nat)) = some (n : Nat) ↔ r.target.map Route.outlet = some n := by
    cases r.target <;> simp [Fin.ext_iff]
  rw [Fin.getElem_fin, release_outlet]
  simp only [Outlet.forget_reserved, target, PocketRecord.decidedFor, phase, beq_self_eq_true, Bool.true_and]
  by_cases named : r.target.map Route.outlet = some n <;> simp [named, beq_eq_false_iff_ne.mpr]

/-- R59: a DECIDED record of the ring is released and takes another phase. -/
theorem release {k : Nat} {r : PocketRecord} {f : PocketRecord → PocketRecord} (h : Ledger parts s)
    (at_k : s.tracker.ring[k]? = some r) (before : r.phase = .decided) (after : (f r).phase ≠ .decided)
    (moved : ((f r).standing.toNat : Int) + left = r.standing.toNat + parts) :
    Ledger left (Machine.modRing k f (release r s)) where
  reserved n := by
    have count := decidedCount_modRing (s := Machine.release r s) f (by simpa using at_k) n
    rw [PocketRecord.decidedFor_eq_false after, State.decidedCount, State.decidedCount, release_tracker] at count
    have queue : (Machine.release r s).outlets[n].queue = s.outlets[n].queue := (release_same r s n n.isLt).2.2.2.2
    have := h.reserved n
    rw [State.decidedCount] at this ⊢
    rw [modRing_outlets, release_reserved before, queue]
    simp only [Bool.toNat_false] at count
    omega
  capacity n cfg entry sweep := by
    have committed : (Machine.release r s).outlets[n].committed = s.outlets[n].committed :=
      (release_same r s n n.isLt).2.1
    have := h.capacity n cfg (by simpa [State.outletEntry] using entry) sweep
    rw [modRing_outlets, release_reserved before, committed]
    omega
  balance := by
    have same (n : Fin 16) := release_same r s n n.isLt
    have entries := State.sumOutlets_congr (t := Machine.release r s) fun n =>
      Outlet.countedEntries_congr (same n).2.2.2.2
    have standing : (Machine.release r s).standingCount = s.standingCount := by simp [State.standingCount]
    have released : (Machine.release r s).Balanced parts :=
      h.balance.of_ring (by rw [release_sup]) (by rw [release_sup]) (fun n => (same n).2.2.1) (by omega)
    exact released.modRing (by simpa using at_k) moved

/-- R100: a part is booked. -/
theorem book (pocket : Nat) (report : SortReport) (h : Ledger parts s) : Ledger (parts - 1) (book pocket report s) :=
  ⟨h.reserved, h.capacity, h.balance.book pocket report⟩

/-- A change of one outlet record that keeps its decided records apart from its entries, and moves its counted parts. -/
theorem modOutlet {n : Fin 16} {f : Outlet → Outlet} (h : Ledger parts s)
    (own : (f s.outlets[n]).reserved + s.outlets[n].queue.length = s.outlets[n].reserved + (f s.outlets[n]).queue.length)
    (fits : (f s.outlets[n]).reserved = 0 ∨
      (f s.outlets[n]).committed + (f s.outlets[n]).reserved ≤ s.outlets[n].committed + s.outlets[n].reserved
        ∧ s.outlets[n].reserved ≠ 0)
    (moved : (f s.outlets[n]).lotTotal < Config.countMax → s.outlets[n].lotTotal < Config.countMax ∧
      ((f s.outlets[n]).lotTotal : Int) + (f s.outlets[n]).countedEntries + left =
        s.outlets[n].lotTotal + s.outlets[n].countedEntries + parts) : Ledger left (modOutlet n f s) where
  reserved m := by
    have before := h.reserved m
    have count : (Machine.modOutlet n f s).decidedCount m = s.decidedCount m := rfl
    rw [modOutlet_outlet, count]
    split
    · next e => subst e; omega
    · exact before
  capacity m cfg entry sweep := by
    have before := h.capacity m cfg entry sweep
    rw [modOutlet_outlet]
    split
    · next e => subst e; omega
    · exact before
  balance free := by
    obtain ⟨present, unaccounted, totals⟩ := free
    have atN : (Machine.modOutlet n f s).outlets[n] = f s.outlets[n] := by rw [modOutlet_outlet, if_pos rfl]
    have others : ∀ m, m ≠ n → (Machine.modOutlet n f s).outlets[m] = s.outlets[m] := fun m hm => by
      rw [modOutlet_outlet, if_neg hm.symm]
    obtain ⟨below, parts⟩ := moved (atN ▸ totals n)
    have freeBefore : s.countersFree := ⟨present, unaccounted, fun m => by
      by_cases hm : m = n
      · exact hm ▸ below
      · exact others m hm ▸ totals m⟩
    have balance := h.balance freeBefore
    have lotTotals := State.sumOutlets_change (count := Outlet.lotTotal) n others
    have entries := State.sumOutlets_change (count := Outlet.countedEntries) n others
    rw [atN] at lotTotals entries
    have standing : (Machine.modOutlet n f s).standingCount = s.standingCount := rfl
    rw [State.accounted_eq] at balance ⊢
    simp only [modOutlet_sup, standing]
    omega

/-- A change of one outlet record and of one record of the ring, between which a reservation or a part moves. -/
theorem modOutlet_modRing {n : Fin 16} {k : Nat} {r : PocketRecord} {f : Outlet → Outlet}
    {g : PocketRecord → PocketRecord} (h : Ledger parts s) (at_k : s.tracker.ring[k]? = some r)
    (own : (f s.outlets[n]).reserved + (r.decidedFor n).toNat + s.outlets[n].queue.length =
      s.outlets[n].reserved + ((g r).decidedFor n).toNat + (f s.outlets[n]).queue.length)
    (others : ∀ m, m ≠ n → (g r).decidedFor m = r.decidedFor m)
    (total : (f s.outlets[n]).lotTotal = s.outlets[n].lotTotal)
    (fits : ∀ cfg, s.outletEntry n = some cfg → cfg.sweep = false →
      (f s.outlets[n]).reserved = 0 ∨ (f s.outlets[n]).committed + (f s.outlets[n]).reserved ≤ cfg.capacity)
    (moved : ((g r).standing.toNat : Int) + (f s.outlets[n]).countedEntries + left =
      r.standing.toNat + s.outlets[n].countedEntries + parts) : Ledger left (Machine.modRing k g (Machine.modOutlet n f s)) where
  reserved m := by
    have before := h.reserved m
    have count := decidedCount_modRing (s := Machine.modOutlet n f s) g at_k m
    have same : (Machine.modOutlet n f s).decidedCount m = s.decidedCount m := rfl
    rw [modRing_outlets, modOutlet_outlet]
    split
    · next e => subst e; omega
    · next e =>
      rw [others m fun e' => e e'.symm] at count
      omega
  capacity m cfg entry sweep := by
    have before := h.capacity m cfg entry sweep
    rw [modRing_outlets, modOutlet_outlet]
    split
    · next e =>
      subst e
      exact fits cfg entry sweep
    · exact before
  balance free := by
    obtain ⟨present, unaccounted, totals⟩ := free
    have atN : (Machine.modOutlet n f s).outlets[n] = f s.outlets[n] := by rw [modOutlet_outlet, if_pos rfl]
    have others : ∀ m, m ≠ n → (Machine.modOutlet n f s).outlets[m] = s.outlets[m] := fun m hm => by
      rw [modOutlet_outlet, if_neg hm.symm]
    have freeBefore : s.countersFree := ⟨present, unaccounted, fun m => by
      have : (Machine.modOutlet n f s).outlets[m].lotTotal < Config.countMax := totals m
      by_cases hm : m = n
      · subst hm
        rwa [atN, total] at this
      · rwa [others m hm] at this⟩
    have balance := h.balance freeBefore
    have lotTotals := State.sumOutlets_change (count := Outlet.lotTotal) n others
    have entries := State.sumOutlets_change (count := Outlet.countedEntries) n others
    rw [atN] at lotTotals entries
    have count := standingCount_modRing (s := Machine.modOutlet n f s) g at_k
    have standing : (Machine.modOutlet n f s).standingCount = s.standingCount := rfl
    rw [State.accounted_eq] at balance ⊢
    simp only [State.sumOutlets, modRing_outlets, modRing_sup, modOutlet_sup] at balance lotTotals entries ⊢
    omega

/-- R73, R75, R92: the fire of a record takes its reservation, or a new one at the sweep outlet, and its part into the entry. -/
theorem recordFire {n : Fin 16} {k : Nat} {r : PocketRecord} (h : Ledger parts s) (at_k : s.tracker.ring[k]? = some r)
    (fires : r.decidedFor n = true ∨ r.phase ≠ .decided ∧ s.isSweep n = true) (stands : r.standing = r.counted) :
    Ledger parts (recordFire n k r s) := by
  have entries (e : Entry) : (s.outlets[n].queue ++ [e]).countP Entry.counted = s.outlets[n].queue.countP Entry.counted
      + e.counted.toNat := by
    rw [List.countP_append, List.countP_singleton]
    cases e.counted <;> rfl
  have entry : (r.entry (r.fireRoute n).hops s.now (s.pocketAt k)).counted = r.counted := rfl
  refine h.modOutlet_modRing at_k ?own ?others rfl ?fits ?moved
  case own =>
    rcases fires with decided | ⟨phase, _⟩
    · have phase := (PocketRecord.decidedFor_iff.mp decided).1
      rw [decided, PocketRecord.decidedFor_eq_false (by simp)]
      simp [phase]
      omega
    · rw [PocketRecord.decidedFor_eq_false phase, PocketRecord.decidedFor_eq_false (by simp)]
      simp [phase]
      omega
  case others =>
    intro m hm
    rw [PocketRecord.decidedFor_eq_false (by simp)]
    rcases fires with decided | ⟨phase, _⟩
    · obtain ⟨_, target⟩ := PocketRecord.decidedFor_iff.mp decided
      simp [PocketRecord.decidedFor, target, hm.symm]
    · rw [PocketRecord.decidedFor_eq_false phase]
  case fits =>
    intro cfg entry sweep
    rcases fires with decided | ⟨_, isSweep⟩
    · have phase := (PocketRecord.decidedFor_iff.mp decided).1
      simpa [phase] using h.capacity n cfg entry sweep
    · simp [State.isSweep, entry, sweep] at isSweep
  case moved =>
    rw [PocketRecord.standing_eq_false rfl, stands]
    simp only [Outlet.countedEntries, ← List.countP_eq_length_filter, entries, entry, Bool.toNat_false]
    omega

/-- R54, R86: a missed entry leaves its queue and takes its reservation with it; its part is in hand. -/
theorem miss {n : Fin 16} {queue : List Entry} {counted : Bool} (h : Ledger parts s)
    (length : queue.length + 1 = s.outlets[n].queue.length)
    (entries : (queue.filter Entry.counted).length + counted.toNat = s.outlets[n].countedEntries) :
    Ledger (parts + counted.toNat)
      (Machine.modOutlet n Outlet.miss (Machine.modOutlet n (fun o => { o with queue := queue }) s)) := by
  have joined : Machine.modOutlet n Outlet.miss (Machine.modOutlet n (fun o => { o with queue := queue }) s)
      = Machine.modOutlet n (fun o => Outlet.miss { o with queue := queue }) s := by
    simp [Machine.modOutlet]
  have reserved := h.reserved n
  rw [joined]
  refine h.modOutlet ?_ ?_ fun free => ⟨free, ?_⟩
  · simp only [Outlet.miss]
    omega
  · simp only [Outlet.miss]
    omega
  · simp only [Outlet.miss, Outlet.countedEntries] at entries ⊢
    omega

/-- R60, R61: a confirmation moves the head entry's part to the lot total. -/
theorem confirm {n : Fin 16} {e : Entry} {rest : List Entry} (capacity : Nat) (h : Ledger parts s)
    (queue : s.outlets[n].queue = e :: rest) :
    Ledger parts (Machine.modOutlet n (fun o => o.confirm e.counted capacity rest) s) := by
  have reserved := h.reserved n
  rw [queue, List.length_cons] at reserved
  refine h.modOutlet ?_ ?_ fun free => ?_
  · simp only [Outlet.confirm, queue, List.length_cons]
    omega
  · simp only [Outlet.confirm]
    omega
  · simp only [Outlet.confirm, Outlet.countedEntries, queue, List.filter_cons] at free ⊢
    cases counted : e.counted with
    | false => simpa [counted] using free
    | true =>
      obtain ⟨total, below⟩ := countUp_eq (n := s.outlets[n].lotTotal) (by simpa [counted] using free)
      refine ⟨below, ?_⟩
      simp only [if_true, total, List.length_cons]
      omega

/-- R47, R57: a record is decided, and its outlet, which has room or is the sweep outlet, reserves 1. -/
theorem decide {n : Fin 16} {k : Nat} {r : PocketRecord} {g : PocketRecord → PocketRecord} (h : Ledger parts s)
    (at_k : s.tracker.ring[k]? = some r) (before : r.phase ≠ .decided) (after : ∀ m, (g r).decidedFor m = decide (m = n))
    (room : ∀ cfg, s.outletEntry n = some cfg → cfg.sweep = false → s.outlets[n].committed + s.outlets[n].reserved < cfg.capacity)
    (moved : ((g r).standing.toNat : Int) + left = r.standing.toNat + parts) :
    Ledger left (Machine.modRing k g (Machine.modOutlet n (fun o => { o with reserved := o.reserved + 1 }) s)) := by
  refine h.modOutlet_modRing at_k ?own ?others rfl ?fits ?moved
  case own =>
    rw [PocketRecord.decidedFor_eq_false before, after]
    simp
  case others =>
    intro m hm
    rw [PocketRecord.decidedFor_eq_false before, after, decide_eq_false hm]
  case fits =>
    intro cfg entry sweep
    have := room cfg entry sweep
    right
    dsimp only
    omega
  case moved =>
    simp only [Outlet.countedEntries]
    omega

end Ledger

end Sys2Proof.Machine

/-! The accounts: the ledger with the counted flags of the ring, kept by the operations of the outlets and of the dial. -/

namespace Sys2Proof.Machine

/-! ### Flags of the ring -/

section

variable {s t : State} {k : Nat} {f : PocketRecord → PocketRecord}

theorem State.flagged.but (h : s.flagged) (k : Nat) : s.flaggedBut k := fun j r _ at_j => h j r at_j

theorem State.flagged.congr (ring : t.tracker.ring = s.tracker.ring) (h : s.flagged) : t.flagged :=
  fun j r at_j => h j r (ring ▸ at_j)

theorem State.flaggedBut.modRing (h : s.flaggedBut k) (f : PocketRecord → PocketRecord) : (modRing k f s).flaggedBut k := by
  intro j r hj at_j
  rw [modRing_get, if_neg (Ne.symm hj)] at at_j
  exact h j r hj at_j

/-- A change of the one record whose flag may be wrong puts it right. -/
theorem State.flaggedBut.flagged_modRing (h : s.flaggedBut k)
    (after : ∀ r, s.tracker.ring[k]? = some r → (f r).Flagged) : (Machine.modRing k f s).flagged := by
  intro j r at_j
  rw [modRing_get] at at_j
  split at at_j
  · next e =>
    subst e
    obtain ⟨before, at_k, rfl⟩ := Option.map_eq_some_iff.mp at_j
    exact after before at_k
  · next e => exact h j r (Ne.symm e) at_j

end

/-! ### Changes that the ledger does not read -/

section

variable (s : State)

theorem endSlots_account : SameAccount s (endSlots s) :=
  mapOutlets_account (f := fun _ o => { o with slot := .free }) (fun _ _ => ⟨rfl, rfl, rfl, rfl⟩) s

theorem stopOutlets_account : SameAccount s (stopOutlets s) :=
  mapOutlets_account (f := fun _ o => { o with slot := .free, drive := .quiet }) (fun _ _ => ⟨rfl, rfl, rfl, rfl⟩) s

theorem freeSlot_account (n : Fin 16) : SameAccount s (modOutlet n (fun o => { o with slot := .free }) s) :=
  modOutlet_account (f := fun o => { o with slot := .free }) (fun _ => ⟨rfl, rfl, rfl, rfl⟩) s

theorem setDrive_account (n : Fin 16) (drive : Drive) : SameAccount s (modOutlet n (fun o => { o with drive := drive }) s) :=
  modOutlet_account (f := fun o => { o with drive := drive }) (fun _ => ⟨rfl, rfl, rfl, rfl⟩) s

theorem setSlot_account (n : Fin 16) (slot : Slot) : SameAccount s (modOutlet n (fun o => { o with slot := slot }) s) :=
  modOutlet_account (f := fun o => { o with slot := slot }) (fun _ => ⟨rfl, rfl, rfl, rfl⟩) s

theorem setFaulted_account (n : Fin 16) : SameAccount s (modOutlet n (fun o => { o with state := .faulted }) s) :=
  modOutlet_account (f := fun o => { o with state := .faulted }) (fun _ => ⟨rfl, rfl, rfl, rfl⟩) s

theorem SameAccount.trans {s t u : State} (h : SameAccount s t) (h' : SameAccount t u) : SameAccount s u where
  ring := h'.ring.trans h.ring
  active := h'.active.trans h.active
  present := h'.present.trans h.present
  unaccounted := h'.unaccounted.trans h.unaccounted
  outlets n :=
    { committed := (h'.outlets n).committed.trans (h.outlets n).committed
      reserved := (h'.outlets n).reserved.trans (h.outlets n).reserved
      lotTotal := (h'.outlets n).lotTotal.trans (h.outlets n).lotTotal
      queue := (h'.outlets n).queue.trans (h.outlets n).queue }

/-- R135, R136: a fault changes the engine state, the fault record, slots and a notice. -/
theorem raiseFault_account (code : FaultCode) (pocket : Nat) (seq : Option Nat) :
    SameAccount s (raiseFault code pocket seq s) := by
  have halted (ret : RunState) (e : FaultEntry) : SameAccount s (enterHalted ret e s) :=
    SameAccount.trans (t := { s with sup := { s.sup with
      engine := .halted, returnState := some ret, faults := { s.sup.faults with first := some e } } })
      ⟨rfl, rfl, rfl, rfl, fun _ => .refl _⟩ ((endSlots_account _).trans (raiseNotice_same _ _ _).account)
  unfold raiseFault
  split
  · exact halted _ _
  · exact halted _ _
  · exact ⟨rfl, rfl, rfl, rfl, fun _ => .refl _⟩
  · exact .refl s
  · exact .refl s

theorem discard_account (reason : Discard) : SameAccount s (discard reason s) := ⟨rfl, rfl, rfl, rfl, fun _ => .refl _⟩

theorem modStack_account (d : Nat) (f : PocketRecord → PocketRecord) : SameAccount s (modStack d f s) :=
  ⟨rfl, rfl, rfl, rfl, fun _ => .refl _⟩

theorem offerReport_account (report : SortReport) : SameAccount s (offerReport report s) :=
  ⟨rfl, rfl, rfl, rfl, fun _ => .refl _⟩

theorem setStage_account (stage : Stage) : SameAccount s (setStage stage s) := ⟨rfl, rfl, rfl, rfl, fun _ => .refl _⟩

theorem countIndex_account (by_ : Int) : SameAccount s (countIndex by_ s) := ⟨rfl, rfl, rfl, rfl, fun _ => .refl _⟩

end

/-! ### The books -/

/-- The names of the ring records, from offset 0 up. -/
def State.ringNames (s : State) : List RecordName := s.tracker.ring.map PocketRecord.name

/-- The ledger, with every record of the ring agreeing with its counted flag and no name standing twice in the ring. -/
structure Accounts (parts : Int) (s : State) : Prop extends Ledger parts s where
  flagged : s.flagged
  names : s.ringNames.Nodup

/-- A change that keeps the name of the one record it reaches keeps all names. -/
theorem ringNames_modRing {s : State} {k : Nat} {f : PocketRecord → PocketRecord}
    (name : ∀ r, s.tracker.ring[k]? = some r → (f r).name = r.name) : (modRing k f s).ringNames = s.ringNames := by
  refine List.ext_getElem? fun j => ?_
  simp only [State.ringNames, List.getElem?_map, modRing_get]
  split
  · next e =>
    subst e
    cases at_k : s.tracker.ring[k]? with
    | none => rfl
    | some r => simp [name r at_k]
  · rfl

theorem ringOffset_some {s : State} {name : RecordName} {k : Nat} (offset : s.ringOffset name = some k) :
    ∃ r, s.tracker.ring[k]? = some r ∧ r.name = name := by
  obtain ⟨inRange, same, _⟩ := List.findIdx?_eq_some_iff_getElem.mp offset
  exact ⟨_, List.getElem?_eq_getElem inRange, by simpa using same⟩

/-- R7: with no name twice, a record's name finds the record. -/
theorem ringOffset_name {s : State} {k j : Nat} {r : PocketRecord} (names : s.ringNames.Nodup)
    (at_k : s.tracker.ring[k]? = some r) (offset : s.ringOffset r.name = some j) : j = k := by
  obtain ⟨r', at_j, same⟩ := ringOffset_some offset
  have inRange : k < s.ringNames.length := by simpa [State.ringNames] using (List.getElem?_eq_some_iff.mp at_k).1
  exact ((List.getElem?_inj inRange names).mp (by simp [State.ringNames, at_k, at_j, same])).symm

/-- The record that a name finds in the ring is one for which the outlet fires (R70, R91). -/
def State.mayFire (s : State) (n : Fin 16) (name : RecordName) : Prop :=
  ∀ k r, s.ringOffset name = some k → s.tracker.ring[k]? = some r → s.firesFor n r

namespace Accounts

variable {s t : State} {parts left : Int}

theorem congr (same : SameAccount s t) (h : Accounts parts s) : Accounts parts t :=
  ⟨h.toLedger.congr same, h.flagged.congr same.ring, by rw [State.ringNames, same.ring]; exact h.names⟩

/-- A change of a record that is not DECIDED before and after. -/
theorem modRing {k : Nat} {r : PocketRecord} {f : PocketRecord → PocketRecord} (h : Accounts parts s)
    (at_k : s.tracker.ring[k]? = some r) (before : r.phase ≠ .decided) (after : (f r).phase ≠ .decided)
    (flag : (f r).Flagged) (name : (f r).name = r.name)
    (moved : ((f r).standing.toNat : Int) + left = r.standing.toNat + parts) :
    Accounts left (modRing k f s) where
  toLedger := h.toLedger.modRing at_k
    (fun n => by rw [PocketRecord.decidedFor_eq_false before, PocketRecord.decidedFor_eq_false after]) moved
  flagged := (h.flagged.but k).flagged_modRing fun r' at_k' => by
    obtain rfl := Option.some.inj (at_k.symm.trans at_k')
    exact flag
  names := by
    rw [ringNames_modRing fun r' at_k' => by
      obtain rfl := Option.some.inj (at_k.symm.trans at_k')
      exact name]
    exact h.names

/-- A change of a record's marks, which neither its place nor its part depends on. -/
theorem modRing_marks {k : Nat} {f : PocketRecord → PocketRecord} (h : Accounts parts s) (phase : ∀ r, (f r).phase = r.phase)
    (target : ∀ r, (f r).target = r.target) (counted : ∀ r, (f r).counted = r.counted)
    (name : ∀ r, (f r).name = r.name) : Accounts parts (Machine.modRing k f s) := by
  cases at_k : s.tracker.ring[k]? with
  | none => rwa [modRing_of_none f at_k]
  | some r =>
    have ledger : Ledger parts (Machine.modRing k f s) := h.toLedger.modRing at_k
      (fun n => by simp [PocketRecord.decidedFor, phase, target]) (by simp [PocketRecord.standing, phase, counted])
    have names := ringNames_modRing (k := k) (s := s) fun r _ => name r
    refine ⟨ledger, (h.flagged.but k).flagged_modRing fun r' at_k' => ?_, names ▸ h.names⟩
    obtain ⟨uncounted, isCounted⟩ := h.flagged k r' at_k'
    exact ⟨by simpa only [phase, counted] using uncounted, by simpa only [phase, counted] using isCounted⟩

/-- R59: a DECIDED record is released and takes another phase. -/
theorem release {k : Nat} {r : PocketRecord} {f : PocketRecord → PocketRecord} (h : Accounts parts s)
    (at_k : s.tracker.ring[k]? = some r) (before : r.phase = .decided) (after : (f r).phase ≠ .decided)
    (flag : (f r).Flagged) (name : (f r).name = r.name)
    (moved : ((f r).standing.toNat : Int) + left = r.standing.toNat + parts) :
    Accounts left (Machine.modRing k f (release r s)) where
  toLedger := h.toLedger.release at_k before after moved
  flagged := (h.flagged.congr (t := Machine.release r s) (by simp)).but k |>.flagged_modRing fun r' at_k' => by
    obtain rfl := Option.some.inj (at_k.symm.trans (by simpa using at_k'))
    exact flag
  names := by
    rw [ringNames_modRing fun r' at_k' => by
      obtain rfl := Option.some.inj (at_k.symm.trans (by simpa using at_k'))
      exact name, State.ringNames, release_tracker]
    exact h.names

theorem book (pocket : Nat) (report : SortReport) (h : Accounts parts s) : Accounts (parts - 1) (book pocket report s) :=
  ⟨h.toLedger.book pocket report, h.flagged.congr rfl, h.names⟩

/-! ### Strands -/

/-- R4, R59: a DECIDED record is released and STRANDED. -/
theorem strand_release {k : Nat} {r : PocketRecord} (reason : Reason) (h : Accounts parts s)
    (at_k : s.tracker.ring[k]? = some r) (before : r.phase = .decided) :
    Accounts parts (Machine.modRing k (.strand reason) (Machine.release r s)) :=
  h.release at_k before (by simp [PocketRecord.strand]) (.of_phase (by simp [PocketRecord.strand])) rfl
    (by simp [PocketRecord.strand, PocketRecord.standing, before, Phase.stands])

theorem strandSlot (n : Fin 16) (h : Accounts parts s) : Accounts parts (strandSlot n s) := by
  have freed := h.congr (freeSlot_account s n)
  rcases strandSlot_cases n s with ⟨_, e⟩ | ⟨_, _, e | ⟨k, r, _, at_k, phase, e⟩⟩
  · rwa [e]
  · rwa [e]
  · rw [e]
    exact freed.strand_release _ at_k phase

theorem strandClaim (claim : Option RecordName) (h : Accounts parts s) : Accounts parts (strandClaim claim s) := by
  rcases strandClaim_cases claim s with e | ⟨_, k, r, _, _, at_k, phase, e⟩
  · rwa [e]
  · rw [e]
    exact h.strand_release _ at_k phase

theorem faultOutlet (n : Fin 16) (h : Accounts parts s) : Accounts parts (faultOutlet n s) := by
  unfold Machine.faultOutlet
  split
  · exact h.strandSlot n
  · exact strandSlot n (h.congr ((setFaulted_account s n).trans (raiseNotice_same _ _ _).account))

/-- R71 test 1: the record is stranded where it stands; a VOID one is not counted. -/
theorem backlog (n : Fin 16) (name : RecordName) (h : Accounts parts s) : Accounts parts (backlog n name s) := by
  have freed := h.congr (freeSlot_account s n)
  unfold Machine.backlog
  dsimp only
  split
  · next k _ =>
    split
    · next r at_k =>
      split
      · next fireable =>
        unfold releaseIfDecided
        split
        · next decided => exact freed.strand_release _ at_k decided
        · next other =>
          refine freed.modRing at_k other (by simp [PocketRecord.strand]) (.of_phase (by simp [PocketRecord.strand])) rfl ?_
          have flag := (h.flagged k r at_k).uncounted
          cases phase : r.phase <;>
            simp_all [PocketRecord.strand, PocketRecord.standing, Phase.stands, Phase.fireable]
      · exact freed
    · exact freed
  · exact freed

/-! ### Fires -/

theorem recordFire {n : Fin 16} {k : Nat} {r : PocketRecord} (h : Accounts parts s) (at_k : s.tracker.ring[k]? = some r)
    (fires : s.firesFor n r) : Accounts parts (recordFire n k r s) where
  toLedger := by
    have flag := (h.flagged k r at_k).uncounted
    refine h.toLedger.recordFire at_k ?_ ?_
    · rcases fires with decided | ⟨sweep, stranded | void⟩
      · exact .inl decided
      · exact .inr ⟨by simp [stranded], sweep⟩
      · exact .inr ⟨by simp [void], sweep⟩
    · rcases fires with decided | ⟨_, stranded | void⟩
      · exact PocketRecord.standing_of_stands (by simp [(PocketRecord.decidedFor_iff.mp decided).1, Phase.stands])
      · exact PocketRecord.standing_of_stands (by simp [stranded, Phase.stands])
      · rw [PocketRecord.standing_eq_false (by simp [void, Phase.stands]), flag (.inr (.inl void))]
  flagged := (State.flagged.congr (t := modOutlet n _ s) rfl h.flagged).but k |>.flagged_modRing fun _ _ =>
    .of_phase (by simp)
  names := by
    unfold Machine.recordFire
    rw [ringNames_modRing (by intros; rfl)]
    exact h.names

theorem beginFire {n : Fin 16} {name : RecordName} (h : Accounts parts s) (fires : s.mayFire n name) :
    Accounts parts (beginFire n name s) := by
  have freed := h.congr (freeSlot_account s n)
  unfold Machine.beginFire
  dsimp only
  split
  · next k _ offset =>
    split
    · next r at_k =>
      split
      · split
        · exact (freed.congr (setDrive_account _ n _)).recordFire at_k (fires k r offset at_k)
        · exact freed.congr (setDrive_account _ n _)
      · exact freed
    · exact freed
  · exact freed

theorem fireTests {n : Fin 16} {name : RecordName} (h : Accounts parts s) (fires : s.mayFire n name) :
    Accounts parts (fireTests n name s) := by
  unfold Machine.fireTests
  split
  · exact h.backlog n name
  · split
    · exact h.beginFire fires
    · exact h.congr (setSlot_account s n _)

theorem startDelay {n : Fin 16} {name : RecordName} (fireDelay : Nat) (h : Accounts parts s) (fires : s.mayFire n name) :
    Accounts parts (startDelay n name fireDelay s) := by
  unfold Machine.startDelay
  split
  · exact h.fireTests fires
  · exact h.congr (setSlot_account s n _)

theorem retestDue {n : Fin 16} (h : Accounts parts s) (fires : ∀ name, s.outlets[n].slot = .due name → s.mayFire n name) :
    Accounts parts (retestDue n s) := by
  unfold Machine.retestDue
  split
  · next name slot =>
    split
    · exact h.fireTests (fires name slot)
    · exact h
  · exact h
  · exact h

/-! ### Misses and confirmations -/

/-- R54, R86: a missed entry's part is in hand. -/
theorem accountMiss {n : Fin 16} {queue : List Entry} {counted : Bool} (h : Accounts parts s)
    (length : queue.length + 1 = s.outlets[n].queue.length)
    (entries : (queue.filter Entry.counted).length + counted.toNat = s.outlets[n].countedEntries) :
    Accounts (parts + counted.toNat) (accountMiss n (modOutlet n (fun o => { o with queue := queue }) s)) := by
  have missed : Accounts (parts + counted.toNat)
      (modOutlet n Outlet.miss (modOutlet n (fun o => { o with queue := queue }) s)) :=
    ⟨h.toLedger.miss length entries, h.flagged.congr rfl, h.names⟩
  unfold Machine.accountMiss
  dsimp only
  split
  · exact missed.faultOutlet n
  · exact missed

theorem firingPlace_ring {name : RecordName} {k : Nat} (place : s.firingPlace name = some (.ring k)) :
    ∃ r, s.tracker.ring[k]? = some r ∧ r.name = name ∧ r.phase = .firing := by
  unfold State.firingPlace at place
  split at place
  · next j found =>
    obtain rfl : j = k := by simpa using place
    obtain ⟨inRange, firing, _⟩ := List.findIdx?_eq_some_iff_getElem.mp found
    exact ⟨_, List.getElem?_eq_getElem inRange, by simpa [isFiring] using firing⟩
  · simp at place

/-- R87: the part in hand of a missed entry is booked, or laid down with its STRANDED record. -/
theorem missFate {n : Fin 16} {e : Entry} (h : Accounts e.counted.toNat s)
    (firing : ∀ r ∈ s.tracker.ring, r.name = e.name → r.phase = .firing → r.counted = e.counted) :
    Accounts 0 (missFate n e s) := by
  have uncounted (no : ¬ e.counted = true) : Accounts 0 s := by simpa [no] using h
  have booked (pocket : Nat) (report : SortReport) (yes : e.counted = true) : Accounts 0 (Machine.book pocket report s) := by
    simpa [yes] using h.book pocket report
  unfold Machine.missFate
  split
  · next k place =>
    obtain ⟨r, at_k, name, phase⟩ := firingPlace_ring place
    have same := firing r (List.mem_of_getElem? at_k) name phase
    have notDecided : r.phase ≠ .decided := by simp [phase]
    have gone : r.standing = false := PocketRecord.standing_eq_false (by simp [phase, Phase.stands])
    split
    · split
      · next counted =>
        exact (booked _ _ counted).modRing at_k notDecided (by simp [PocketRecord.settle])
          (.of_phase (by simp [PocketRecord.settle])) rfl (by simp [PocketRecord.settle, PocketRecord.standing, Phase.stands, phase])
      · next no =>
        exact (uncounted no).modRing at_k notDecided (by simp [PocketRecord.settle])
          ⟨fun _ => by simpa [PocketRecord.settle, same] using no, by simp [PocketRecord.settle]⟩ rfl
          (by simp [PocketRecord.settle, PocketRecord.standing, Phase.stands, phase])
    · refine h.modRing at_k notDecided (by simp [PocketRecord.strand]) (.of_phase (by simp [PocketRecord.strand])) rfl ?_
      simp [PocketRecord.strand, PocketRecord.standing, Phase.stands, phase, same]
  · split
    · next counted => exact congr (modStack_account _ _ _) (booked _ _ counted)
    · next no => exact congr (modStack_account _ _ _) (uncounted no)
  · split
    · next counted => exact booked _ _ counted
    · next no => exact uncounted no

end Accounts

end Sys2Proof.Machine

namespace Sys2Proof.Machine

/-! ### The sweep outlet and routing -/

/-- The active set names a sweep outlet (R120 check 6). -/
def State.hasSweep (s : State) : Prop := ∃ cfg, s.outletEntry s.sweepOutlet = some cfg ∧ cfg.sweep = true

theorem State.sweepOutlet_of_active {s t : State} (h : t.tables.active = s.tables.active) :
    t.sweepOutlet = s.sweepOutlet := by
  have : t.isSweep = s.isSweep := by
    funext n
    simp [State.isSweep, State.outletEntry_of_active h]
  simp [State.sweepOutlet, this]

theorem State.hasSweep.congr {s t : State} (active : t.tables.active = s.tables.active) (h : s.hasSweep) : t.hasSweep := by
  obtain ⟨cfg, entry, sweep⟩ := h
  exact ⟨cfg, by rw [State.sweepOutlet_of_active active, State.outletEntry_of_active active, entry], sweep⟩

theorem firstFailure_eq_none {code : Nat} {checks : List (Option (Option Nat))} (h : firstFailure code checks = none) :
    ∀ check ∈ checks, check = none := by
  induction checks generalizing code with
  | nil => simp
  | cons check rest ih =>
    cases check with
    | none => simpa using ih (by simpa [firstFailure] using h)
    | some index => simp [firstFailure] at h

theorem TableSet.exists_sweep {t : TableSet} (valid : t.invalid = none) :
    ∃ n, (t.outlet n).any OutletEntry.sweep = true := by
  have checked : t.checkSweep = none := firstFailure_eq_none valid _ (by simp)
  unfold TableSet.checkSweep at checked
  split at checked
  · simp at checked
  · next n only =>
    have : n ∈ allOutlets.filter fun n => (t.outlet n).any OutletEntry.sweep := by simp [only]
    exact ⟨n, (List.mem_filter.mp this).2⟩
  · simp at checked

theorem mem_allOutlets (n : Fin 16) : n ∈ allOutlets := by revert n; decide

/-- R91, R107, R120: an engine past UNCONFIGURED has a sweep outlet. -/
theorem GeometryLaw.hasSweep {s : State} (h : GeometryLaw s) (configured : s.sup.engine ≠ .unconfigured) : s.hasSweep := by
  cases active : s.tables.active with
  | none => exact absurd (h.active.mp (by simp [active])) configured
  | some t =>
    obtain ⟨n, sweep⟩ := TableSet.exists_sweep (h.valid t active).1
    have isSweep : s.isSweep n = true := by simpa [State.isSweep, State.outletEntry, active] using sweep
    have found : s.isSweep s.sweepOutlet = true := by
      unfold State.sweepOutlet
      cases first : allOutlets.find? s.isSweep with
      | none => simpa [isSweep] using List.find?_eq_none.mp first n (mem_allOutlets n)
      | some m => exact List.find?_some first
    simpa [State.hasSweep, State.isSweep, Option.any_eq_true] using found

/-- An outlet that is not a sweep outlet has room for one more reservation. -/
def State.hasRoom (s : State) (n : Fin 16) : Prop := ∀ cfg, s.outletEntry n = some cfg → cfg.sweep = false →
  s.outlets[n].committed + s.outlets[n].reserved < cfg.capacity

theorem State.hasRoom_of_usable {s : State} {offset : Nat} {n : Fin 16} (usable : s.usable offset n = true) :
    s.hasRoom n := by
  intro cfg entry sweep
  simp only [State.usable, entry, sweep, Bool.false_or, Bool.and_eq_true, decide_eq_true_eq] at usable
  exact usable.1.2

theorem State.hasSweep.hasRoom {s : State} (h : s.hasSweep) : s.hasRoom s.sweepOutlet := by
  obtain ⟨cfg, entry, sweep⟩ := h
  intro cfg' entry' sweep'
  simp_all

/-- R56, R58: routing gives an outlet with room, or a sweep outlet. -/
theorem State.routeFrom_hasRoom {s : State} (h : s.hasSweep) (offset left hops : Nat) (n : Fin 16) :
    s.hasRoom (s.routeFrom offset left hops n).outlet := by
  induction left generalizing hops n with
  | zero =>
    unfold State.routeFrom
    split
    · next usable => exact State.hasRoom_of_usable usable
    · exact h.hasRoom
  | succ left ih =>
    rw [State.routeFrom_succ]
    split
    · next usable => exact State.hasRoom_of_usable usable
    · cases (s.outletEntry n).bind OutletEntry.overflow with
      | none => exact h.hasRoom
      | some m => exact ih (hops + 1) m

section

variable {s : State} {parts left : Int} {k : Nat} {r : PocketRecord}

/-- R47, R57: a final verdict reserves for the record's part, which is counted. -/
theorem Ledger.finalVerdict (h : Ledger parts s) (sweep : s.hasSweep) (at_k : s.tracker.ring[k]? = some r)
    (before : r.phase ≠ .decided) (v : Verdict) (reason : Reason)
    (moved : (r.counted.toNat : Int) + left = r.standing.toNat + parts) : Ledger left (finalVerdict k v reason s) := by
  refine h.decide at_k before (fun m => ?_) (State.routeFrom_hasRoom sweep _ _ _ _) ?_
  · rw [Bool.eq_iff_iff, PocketRecord.decidedFor_iff, decide_eq_true_iff]
    simp only [Option.map_some, Option.some.injEq, true_and]
    exact eq_comm
  · rw [PocketRecord.standing_of_stands rfl]
    exact moved

theorem State.flaggedBut.finalVerdict (h : s.flaggedBut k) (at_k : s.tracker.ring[k]? = some r) (counted : r.counted = true)
    (v : Verdict) (reason : Reason) : (finalVerdict k v reason s).flagged :=
  (show (modOutlet _ _ s).flaggedBut k from h).flagged_modRing fun r' at_k' => by
    obtain rfl := Option.some.inj (at_k.symm.trans at_k')
    exact ⟨by simp, fun _ => counted⟩

theorem ringNames_finalVerdict (v : Verdict) (reason : Reason) : (finalVerdict k v reason s).ringNames = s.ringNames :=
  ringNames_modRing (s := modOutlet _ _ s) (by intros; rfl)

/-- A HELD record takes its final verdict. -/
theorem Accounts.finalVerdict (h : Accounts parts s) (sweep : s.hasSweep) (at_k : s.tracker.ring[k]? = some r)
    (held : r.phase = .held) (v : Verdict) (reason : Reason) : Accounts parts (finalVerdict k v reason s) where
  toLedger := h.toLedger.finalVerdict sweep at_k (by simp [held]) v reason
    (by rw [PocketRecord.standing_of_stands (by rw [held]; rfl)])
  flagged := (h.flagged.but k).finalVerdict at_k ((h.flagged k r at_k).counted (.inl held)) v reason
  names := by
    rw [ringNames_finalVerdict]
    exact h.names

namespace Accounts

/-! ### Confirmations -/

theorem raiseFull (n : Fin 16) (e : Entry) (cfg : OutletEntry) (before : Nat) (h : Accounts parts s) :
    Accounts parts (raiseFull n e cfg before s) := by
  have noticed : Accounts parts (if before + 1 = cfg.capacity then raiseNotice .outletFull n.val s else s) := by
    split
    · exact h.congr (raiseNotice_same _ _ _).account
    · exact h
  unfold Machine.raiseFull
  dsimp only
  split
  · exact noticed.congr (raiseFault_account _ _ _ _)
  · exact noticed

/-- A FIRING record becomes GONE; its part is elsewhere. -/
theorem confirmRecord (n : Fin 16) (e : Entry) (sweep : Bool) (h : Accounts parts s) :
    Accounts parts (confirmRecord n e sweep s) := by
  unfold Machine.confirmRecord
  split
  · next p place =>
    refine congr (offerReport_account _ _) ?_
    cases p with
    | ring k =>
      obtain ⟨r, at_k, _, phase⟩ := firingPlace_ring place
      exact h.modRing at_k (by simp [phase]) (by simp [PocketRecord.settle]) (.of_phase (by simp [PocketRecord.settle])) rfl
        (by simp [PocketRecord.settle, PocketRecord.standing, Phase.stands, phase])
    | stack d => exact h.congr (modStack_account _ _ _)
  · exact h.congr (offerReport_account _ _)

theorem countRecovered_account (counted : Bool) (s : State) : SameAccount s (countRecovered counted s) :=
  ⟨rfl, rfl, rfl, rfl, fun _ => .refl _⟩

theorem takeDrop (n : Fin 16) (cfg : OutletEntry) (h : Accounts parts s) : Accounts parts (takeDrop n cfg s) := by
  have stray : Accounts parts (strayDrop n s) := h.congr (s := s) ⟨rfl, rfl, rfl, rfl, fun _ => .refl _⟩
  unfold Machine.takeDrop
  split
  · next e rest queue =>
    split
    · exact stray
    · have confirmed : Accounts parts (modOutlet n (fun o => o.confirm e.counted cfg.capacity rest) s) :=
        ⟨h.toLedger.confirm cfg.capacity queue, h.flagged.congr rfl, h.names⟩
      exact ((confirmed.congr (countRecovered_account _ _)).raiseFull n e cfg _).confirmRecord n e cfg.sweep
  · exact stray

/-! ### Misses of a record -/

theorem mem_entries {n : Fin 16} {e : Entry} (he : e ∈ s.outlets[n].queue) : e ∈ s.entries :=
  List.mem_flatMap.mpr ⟨n, mem_allOutlets n, he⟩

/-- R97, R99: the entry of a FIRING record is removed, and its part is in hand. -/
theorem missEntryOf {name : RecordName} {counted : Bool} (h : Accounts parts s)
    (entry : ∃ e ∈ s.entries, e.name = name) (same : ∀ e ∈ s.entries, e.name = name → e.counted = counted) :
    Accounts (parts + counted.toNat) (missEntryOf name s) := by
  obtain ⟨e, he, named⟩ := entry
  obtain ⟨m, _, inQueue⟩ := List.mem_flatMap.mp he
  unfold Machine.missEntryOf
  split
  · next n found =>
    have holds : (s.outlets[n].queue.any fun e => e.name == name) = true :=
      List.find?_some (p := fun n : Fin 16 => s.outlets[n].queue.any fun e => e.name == name) found
    obtain ⟨e, he, named⟩ := List.any_eq_true.mp holds
    obtain ⟨missed, before, after, _, hit, split, rest⟩ :=
      List.exists_of_eraseP (p := fun e => e.name == name) he named
    have missedCounted : missed.counted = counted :=
      same missed (mem_entries (n := n) (by rw [split]; simp)) (by simpa using hit)
    have erased : (modOutlet n (fun o => { o with queue := o.queue.eraseP fun e => e.name == name }) s)
        = modOutlet n (fun o => { o with queue := before ++ after }) s := by
      simp only [modOutlet, rest]
    rw [erased]
    refine h.accountMiss (by rw [split]; simp; omega) ?_
    rw [Outlet.countedEntries, split]
    cases isCounted : missed.counted <;> simp [isCounted, ← missedCounted]
    omega
  · next none =>
    have := List.find?_eq_none.mp none m (mem_allOutlets m)
    simp only [List.any_eq_true, beq_iff_eq, not_exists, not_and] at this
    exact absurd named (this e inQueue)

/-! ### The check position -/

/-- R96, R100: a standing record is booked and LOST; a DECIDED one is released first. -/
theorem lose (h : Accounts parts s) (at_k : s.tracker.ring[k]? = some r) (standing : r.standing = true) (pocket : Nat)
    (report : SortReport) :
    Accounts parts (Machine.modRing k (.settle .lost) (Machine.book pocket report (releaseIfDecided r s))) := by
  have commutes (t : State) : Machine.modRing k (.settle .lost) (Machine.book pocket report t)
      = Machine.book pocket report (Machine.modRing k (.settle .lost) t) := rfl
  have laid : ((r.settle .lost).standing.toNat : Int) + (parts + 1) = r.standing.toNat + parts := by
    rw [standing, PocketRecord.standing_eq_false rfl]
    simp only [Bool.toNat_false, Bool.toNat_true]
    omega
  have lost : Accounts (parts + 1) (Machine.modRing k (.settle .lost) (releaseIfDecided r s)) := by
    unfold releaseIfDecided
    split
    · next decided =>
      exact h.release at_k decided (by simp [PocketRecord.settle]) (.of_phase (by simp [PocketRecord.settle])) rfl laid
    · next other =>
      exact h.modRing at_k other (by simp [PocketRecord.settle]) (.of_phase (by simp [PocketRecord.settle])) rfl laid
  rw [commutes]
  simpa using lost.book pocket report

/-- A record that does not stand takes another phase in which it does not stand. -/
theorem settle {phase : Phase} (h : Accounts parts s) (at_k : s.tracker.ring[k]? = some r) (before : r.phase ≠ .decided)
    (standing : r.standing = false) (after : phase.stands = false)
    (flag : phase = .open ∨ phase = .void ∨ phase = .empty → r.counted = false) :
    Accounts parts (Machine.modRing k (.settle phase) s) := by
  have notHeld : phase ≠ .held := by rintro rfl; simp [Phase.stands] at after
  have notDecided : phase ≠ .decided := by rintro rfl; simp [Phase.stands] at after
  exact h.modRing at_k before notDecided ⟨flag, by simp [PocketRecord.settle, notHeld, notDecided]⟩ rfl
    (by rw [PocketRecord.standing_eq_false after, standing])

/-- R98, R99: a record becomes RETAINED with its part, if it is counted. -/
theorem retained {f : PocketRecord → PocketRecord} (h : Accounts parts s) (at_k : s.tracker.ring[k]? = some r)
    (before : r.phase ≠ .decided) (phase : (f r).phase = .retained) (name : (f r).name = r.name)
    (moved : ((f r).counted.toNat : Int) + left = r.standing.toNat + parts) : Accounts left (Machine.modRing k f s) :=
  h.modRing at_k before (by simp [phase]) (.of_phase (by simp [phase])) name
    (by rwa [PocketRecord.standing_of_stands (by simp [phase, Phase.stands])])

end Accounts

end

end Sys2Proof.Machine

/-! The accounts along the dial: the check position, the two indices, the deadlines, the passes and the arrivals. -/

namespace Sys2Proof.Machine

/-! ### Names -/

/-- The names of the Tracker's records and what it has issued are the same in both states. -/
structure SameNames (s t : State) : Prop where
  ring : t.ringNames = s.ringNames
  stack : t.tracker.stack = s.tracker.stack
  nextSeq : t.tracker.nextSeq = s.tracker.nextSeq
  nextIdent : t.tracker.nextIdent = s.tracker.nextIdent

namespace SameNames

variable {s t u : State}

theorem of_tracker (tracker : t.tracker = s.tracker) : SameNames s t :=
  ⟨by simp [State.ringNames, tracker], by rw [tracker], by rw [tracker], by rw [tracker]⟩

theorem trans (h : SameNames s t) (h' : SameNames t u) : SameNames s u :=
  ⟨h'.ring.trans h.ring, h'.stack.trans h.stack, h'.nextSeq.trans h.nextSeq, h'.nextIdent.trans h.nextIdent⟩

theorem modRing (k : Nat) (f : PocketRecord → PocketRecord) (name : ∀ r, (f r).name = r.name) (s : State) :
    SameNames s (modRing k f s) := ⟨ringNames_modRing fun r _ => name r, rfl, rfl, rfl⟩

theorem strandSlot (n : Fin 16) (s : State) : SameNames s (strandSlot n s) := by
  rcases strandSlot_cases n s with ⟨_, e⟩ | ⟨_, _, e | ⟨k, r, _, _, _, e⟩⟩
  · exact of_tracker (by rw [e])
  · exact of_tracker (by rw [e, modOutlet_tracker])
  · rw [e]
    exact trans (of_tracker ((release_tracker ..).trans (modOutlet_tracker ..))) (modRing k (.strand _) (fun _ => rfl) _)

theorem faultOutlet (n : Fin 16) (s : State) : SameNames s (faultOutlet n s) := by
  unfold Machine.faultOutlet
  split
  · exact strandSlot n s
  · exact trans (of_tracker (by rw [raiseNotice_tracker, modOutlet_tracker])) (strandSlot n _)

theorem accountMiss (n : Fin 16) (s : State) : SameNames s (accountMiss n s) := by
  unfold Machine.accountMiss
  dsimp only
  split
  · exact trans (of_tracker (modOutlet_tracker ..)) (faultOutlet n _)
  · exact of_tracker (modOutlet_tracker ..)

theorem missEntryOf (name : RecordName) (s : State) : SameNames s (missEntryOf name s) := by
  unfold Machine.missEntryOf
  split
  · exact trans (of_tracker (modOutlet_tracker ..)) (accountMiss _ _)
  · exact of_tracker rfl

theorem prepareUnchecked (r : PocketRecord) (s : State) : SameNames s (prepareUnchecked r s) := by
  unfold Machine.prepareUnchecked
  split
  · exact of_tracker (release_tracker r s)
  · exact missEntryOf _ s
  all_goals exact of_tracker rfl

theorem cancelCheck (s : State) : SameNames s (cancelCheck s) := by
  unfold Machine.cancelCheck handleUnchecked
  split
  · split
    · split
      · exact ⟨rfl, rfl, rfl, rfl⟩
      · next r _ _ =>
        have stopped : SameNames s (stopCheckTimer s) := ⟨rfl, rfl, rfl, rfl⟩
        exact ((stopped.trans (prepareUnchecked r _)).trans (modRing _ (.settle .retained) (fun _ => rfl) _)).trans
          (of_tracker (raiseFault_tracker ..))
    · exact ⟨rfl, rfl, rfl, rfl⟩
  · exact of_tracker rfl

end SameNames

/-! ### Records that a miss leaves alone -/

section

variable {s : State} {k : Nat} {r : PocketRecord} (at_k : s.tracker.ring[k]? = some r) (phase : r.phase ≠ .decided)

include at_k phase

theorem strandSlot_keeps (n : Fin 16) : (strandSlot n s).tracker.ring[k]? = some r := by
  rcases strandSlot_cases n s with ⟨_, e⟩ | ⟨_, _, e | ⟨j, r', _, at_j, decided, e⟩⟩
  · rwa [e]
  · rwa [e]
  · rw [e, modRing_get, release_tracker, modOutlet_tracker]
    split
    · next same =>
      subst same
      obtain rfl := Option.some.inj (at_k.symm.trans at_j)
      exact absurd decided phase
    · exact at_k

theorem faultOutlet_keeps (n : Fin 16) : (faultOutlet n s).tracker.ring[k]? = some r := by
  unfold faultOutlet
  split
  · exact strandSlot_keeps at_k phase n
  · exact strandSlot_keeps (by simpa using at_k) phase n

theorem accountMiss_keeps (n : Fin 16) : (accountMiss n s).tracker.ring[k]? = some r := by
  unfold accountMiss
  dsimp only
  split
  · exact faultOutlet_keeps (by simpa using at_k) phase n
  · exact at_k

theorem missEntryOf_keeps (name : RecordName) : (missEntryOf name s).tracker.ring[k]? = some r := by
  unfold missEntryOf
  split
  · exact accountMiss_keeps (by simpa using at_k) phase _
  · exact at_k

end

/-! ### The check position -/

/-- There are entries with a record's name, and their counted flags are the record's (R82). -/
def State.hasEntries (s : State) (r : PocketRecord) : Prop :=
  (∃ e ∈ s.entries, e.name = r.name) ∧ ∀ e ∈ s.entries, e.name = r.name → e.counted = r.counted

namespace Accounts

variable {s : State} {k : Nat} {r : PocketRecord}

/-- R99: what an unchecked record is holding elsewhere comes back to it, and it becomes RETAINED. -/
theorem unchecked (h : Accounts 0 s) (at_k : s.tracker.ring[k]? = some r) (entries : r.phase = .firing → s.hasEntries r)
    (unclear : r.phase.clearUnchecked = false) :
    Accounts 0 (Machine.modRing k (.settle .retained) (prepareUnchecked r s)) := by
  have flag := (h.flagged k r at_k).uncounted
  have asItStands (other : r.phase ≠ .decided) (stands : r.standing = r.counted) :
      Accounts 0 (Machine.modRing k (.settle .retained) s) :=
    h.retained at_k other rfl rfl (by rw [stands]; rfl)
  unfold prepareUnchecked
  split
  case h_1 decided =>
    exact h.release at_k decided (by simp [PocketRecord.settle]) (.of_phase (by simp [PocketRecord.settle])) rfl
      (by rw [PocketRecord.standing_of_stands rfl, PocketRecord.standing_of_stands (r := r) (by rw [decided]; rfl)]; rfl)
  case h_2 firing =>
    have other : r.phase ≠ .decided := by simp [firing]
    obtain ⟨entry, same⟩ := entries firing
    refine (h.missEntryOf entry same).retained (missEntryOf_keeps at_k other _) other rfl rfl ?_
    rw [PocketRecord.standing_eq_false (by rw [firing]; rfl)]
    simp [PocketRecord.settle]
  case h_3 | h_4 | h_6 =>
    rename_i phase
    exact asItStands (by simp [phase]) (PocketRecord.standing_of_stands (by rw [phase]; rfl))
  case h_5 phase =>
    exact asItStands (by simp [phase]) (by rw [PocketRecord.standing_eq_false (by rw [phase]; rfl), flag (.inl phase)])
  case h_7 | h_8 | h_9 | h_10 =>
    rename_i phase
    simp [phase, Phase.clearUnchecked] at unclear

theorem cancelCheck (h : Accounts 0 s)
    (entries : ∀ r, s.tracker.ring[s.z]? = some r → r.phase = .firing → s.hasEntries r) : Accounts 0 (cancelCheck s) := by
  have stopped : Accounts 0 (stopCheckTimer s) := h.congr (s := s) ⟨rfl, rfl, rfl, rfl, fun _ => .refl _⟩
  unfold Machine.cancelCheck
  split
  · unfold handleUnchecked
    split
    · next r at_z =>
      split
      · exact stopped
      · next unclear =>
        exact (stopped.unchecked at_z (entries r at_z) (by simpa using unclear)).congr (raiseFault_account _ _ _ _)
    · exact stopped
  · exact h

theorem retain {r' : PocketRecord} {counted : Bool} {parts : Int} (h : Accounts parts s)
    (at_z : s.tracker.ring[s.z]? = some r') (other : r'.phase ≠ .decided)
    (moved : (counted.toNat : Int) = r'.standing.toNat + parts) : Accounts 0 (retain r counted s) :=
  congr (raiseFault_account _ _ _ _) (h.retained at_z other rfl rfl (by rw [← moved]; simp))

/-- R96 to R98: a record found present takes back what it holds elsewhere, and is RETAINED. -/
theorem samplePresent (h : Accounts 0 s) (at_z : s.tracker.ring[s.z]? = some { r with checked := true })
    (entries : r.phase = .firing → s.hasEntries r) : Accounts 0 (samplePresent r s) := by
  have found (other : r.phase ≠ .decided) {counted : Bool}
      (stands : PocketRecord.standing { r with checked := true } = counted) : Accounts 0 (Machine.retain r counted s) :=
    h.retain at_z other (by rw [stands]; simp)
  unfold Machine.samplePresent
  split
  case h_6 firing =>
    have other : r.phase ≠ .decided := by simp [firing]
    obtain ⟨entry, same⟩ := entries firing
    refine retain (r' := { r with checked := true }) (h.missEntryOf entry same) ?_ other ?_
    · rw [State.z_congr (missEntryOf_tables _ _)]
      exact missEntryOf_keeps at_z other _
    · rw [PocketRecord.standing_eq_false (by simp [firing, Phase.stands])]
      simp
  case h_8 decided =>
    have released : Accounts 0 (Machine.modRing s.z
        (fun r' => { r' with phase := .retained, target := none, counted := r.counted })
        (Machine.release { r with checked := true } s)) :=
      h.release at_z decided (by simp) (.of_phase (by simp)) rfl (by
        rw [PocketRecord.standing_of_stands rfl, PocketRecord.standing_of_stands (by simp [decided, Phase.stands])])
    unfold Machine.retain
    rw [State.z_congr (release_tables _ _)]
    exact released.congr (raiseFault_account _ _ _ _)
  case h_10 => exact h
  case h_7 | h_9 =>
    rename_i phase
    exact found (by simp [phase]) (PocketRecord.standing_of_stands (by simp [phase, Phase.stands]))
  all_goals
    rename_i phase
    exact found (by simp [phase]) (PocketRecord.standing_eq_false (by simp [phase, Phase.stands]))

/-- R96: a record found clear is booked when it is counted, and settled when it is not. -/
theorem sampleClear (h : Accounts 0 s) (at_z : s.tracker.ring[s.z]? = some { r with checked := true }) :
    Accounts 0 (sampleClear r s) := by
  have standing (stands : r.phase.stands = true) : PocketRecord.standing { r with checked := true } = r.counted :=
    PocketRecord.standing_of_stands stands
  have settled (stands : r.phase.stands = true) (other : r.phase ≠ .decided) (phase : Phase) (after : phase.stands = false) :
      Accounts 0 (if r.counted then bookAtCheck r s else Machine.modRing s.z (.settle phase) s) := by
    split
    · next counted =>
      have lost := h.lose at_z (by rw [standing stands, counted]) (s.pocketAt s.z) (s.trackerReport r (s.pocketAt s.z))
      rwa [releaseIfDecided, if_neg other] at lost
    · next no =>
      exact h.settle at_z other (by simpa [standing stands] using no) after fun _ => by simpa using no
  unfold Machine.sampleClear
  split
  case h_7 | h_9 | h_10 =>
    rename_i phase
    exact settled (by simp [phase, Phase.stands]) (by simp [phase]) _ rfl
  case h_8 decided =>
    have z : (Machine.release r s).z = s.z := State.z_congr (release_tables _ _)
    split
    · next counted =>
      have lost := h.lose at_z (by rw [standing (by simp [decided, Phase.stands]), counted])
        ((Machine.release r s).pocketAt s.z) ((Machine.release r s).trackerReport r ((Machine.release r s).pocketAt s.z))
      rw [releaseIfDecided, if_pos decided] at lost
      unfold bookAtCheck bookRecord
      rw [z]
      exact lost
    · next no =>
      exact h.release (r := { r with checked := true }) at_z decided (by simp [PocketRecord.settle])
        ⟨fun _ => by simpa [PocketRecord.settle] using no, by simp [PocketRecord.settle]⟩ rfl (by
          rw [standing (by simp [decided, Phase.stands]), PocketRecord.standing_eq_false rfl]
          simp [no])
  all_goals exact h

theorem takeSample (check : Bool) (h : Accounts 0 s)
    (entries : ∀ r, s.tracker.ring[s.z]? = some r → r.phase = .firing → s.hasEntries r) :
    Accounts 0 (takeSample check s) := by
  unfold Machine.takeSample
  split
  · next r at_z =>
    have marked : Accounts 0 (markChecked s) :=
      h.modRing_marks (fun _ => rfl) (fun _ => rfl) (fun _ => rfl) (fun _ => rfl)
    have at_z' : (markChecked s).tracker.ring[(markChecked s).z]? = some { r with checked := true } := by
      have z : (markChecked s).z = s.z := State.z_congr rfl
      rw [z, markChecked, modRing_get, if_pos rfl, at_z]
      rfl
    split
    · exact marked.samplePresent at_z' (entries r at_z)
    · exact marked.sampleClear at_z'
  · exact h

end Accounts

end Sys2Proof.Machine

namespace Sys2Proof.Machine

/-! ### Records that enter and leave the ring -/

/-- A record that holds no reservation and no part of the balance. -/
structure PocketRecord.Idle (r : PocketRecord) : Prop where
  undecided : r.phase ≠ .decided
  standing : r.standing = false

theorem PocketRecord.Idle.of_phase {r : PocketRecord} (phase : r.phase.stands = false) : r.Idle :=
  ⟨fun decided => by simp [decided, Phase.stands] at phase, standing_eq_false phase⟩

theorem State.flagged_iff {s : State} : s.flagged ↔ ∀ r ∈ s.tracker.ring, r.Flagged :=
  ⟨fun h r hr => have ⟨k, at_k⟩ := List.getElem?_of_mem hr; h k r at_k, fun h _ r at_k => h r (List.mem_of_getElem? at_k)⟩

/-- A new record has a name that the Tracker has not issued (R5, log 18). -/
theorem Tracker.not_hasIssued_fresh (t : Tracker) (phase : Phase) :
    ¬ t.hasIssued (PocketRecord.fresh t.issue (if t.issue.isSome then 0 else t.nextIdent) phase).name := by
  cases issue : t.issue with
  | none => simp [PocketRecord.fresh, PocketRecord.name, Tracker.hasIssued]
  | some q =>
    have next : t.nextSeq = some q := by
      unfold Tracker.issue at issue
      split at issue
      · split at issue
        · simpa [← issue] using ‹t.nextSeq = _›
        · simp at issue
      · simp at issue
    simp [PocketRecord.fresh, PocketRecord.name, Tracker.hasIssued, next]

theorem hasIssued_congr {s t : State} (h : SameNames s t) (name : RecordName) :
    t.tracker.hasIssued name ↔ s.tracker.hasIssued name := by
  cases name <;> simp [Tracker.hasIssued, h.nextSeq, h.nextIdent]

namespace Accounts

variable {s t : State} {parts : Int}

/-- One record of the ring, holding nothing, is exchanged for another that holds nothing and has a name of its own. -/
theorem exchange {r new : PocketRecord} {others : List PocketRecord} (h : Accounts parts s) (outlets : t.outlets = s.outlets)
    (active : t.tables.active = s.tables.active) (present : t.sup.present = s.sup.present)
    (unaccounted : t.sup.unaccounted = s.sup.unaccounted) (before : s.tracker.ring.Perm (r :: others))
    (after : t.tracker.ring.Perm (new :: others)) (idle : r.Idle) (idleNew : new.Idle) (flag : new.Flagged)
    (name : new.name ∉ others.map PocketRecord.name) : Accounts parts t := by
  have counts (p : PocketRecord → Bool) (hr : p r = false) (hnew : p new = false) :
      (t.tracker.ring.filter p).length = (s.tracker.ring.filter p).length := by
    rw [(before.filter p).length_eq, (after.filter p).length_eq]
    simp [hr, hnew]
  have decided (n : Fin 16) : t.decidedCount n = s.decidedCount n :=
    counts _ (PocketRecord.decidedFor_eq_false idle.undecided n) (PocketRecord.decidedFor_eq_false idleNew.undecided n)
  have standing : t.standingCount = s.standingCount := counts _ idle.standing idleNew.standing
  refine { reserved := fun n => ?_, capacity := fun n cfg entry sweep => ?_, balance := ?_, flagged := ?_, names := ?_ }
  · rw [outlets, decided, h.reserved]
  · rw [outlets]
    exact h.capacity n cfg (State.outletEntry_of_active active n ▸ entry) sweep
  · refine h.balance.of_ring present unaccounted (fun n => by rw [outlets]) ?_
    simp only [State.sumOutlets, outlets, standing]
  · refine State.flagged_iff.mpr fun r' hr' => ?_
    rcases List.mem_cons.mp (after.mem_iff.mp hr') with rfl | inOthers
    · exact flag
    · exact State.flagged_iff.mp h.flagged r' (before.mem_iff.mpr (List.mem_cons_of_mem _ inOthers))
  · have namesBefore := (before.map PocketRecord.name).nodup_iff.mp h.names
    refine (after.map PocketRecord.name).nodup_iff.mpr ?_
    rw [List.map_cons, List.nodup_cons] at namesBefore ⊢
    exact ⟨name, namesBefore.2⟩

/-! ### The ring moves up -/

theorem retire_ring (r : PocketRecord) (s : State) : (retire r s).tracker.ring = s.tracker.ring := by
  unfold retire push
  repeat' split
  all_goals simp

theorem retire_names (r : PocketRecord) (s : State) :
    (retire r s).tracker.nextSeq = s.tracker.nextSeq ∧ (retire r s).tracker.nextIdent = s.tracker.nextIdent := by
  unfold retire push
  repeat' split
  all_goals simp

/-- R11: what retiring the record at `k` books, with that record settled in its place. -/
theorem retired {k : Nat} {r : PocketRecord} (h : Accounts parts s) (at_k : s.tracker.ring[k]? = some r)
    (leaves : r.phase = .retained ∨ r.phase.stands = false) (ring : List PocketRecord) :
    ∃ u r', Accounts parts u ∧ r'.Idle ∧ u.tracker.ring = s.tracker.ring.set k r' ∧ u.outlets = s.outlets
      ∧ u.tables = s.tables ∧ u.sup = (retire r (setRing ring s)).sup := by
  have set (f : PocketRecord → PocketRecord) : s.tracker.ring.modify k f = s.tracker.ring.set k (f r) := by
    rw [List.modify_eq_set_getElem?, at_k]
    rfl
  have lost : (r.settle .lost).Idle := .of_phase rfl
  unfold retire push
  split
  · next retained =>
    have other : r.phase ≠ .decided := by simp [retained]
    have standing : r.standing = r.counted := PocketRecord.standing_of_stands (by rw [retained]; rfl)
    split
    · next counted =>
      have booked := h.lose at_k (by rw [standing, counted]) 0 (s.trackerReport r 0)
      rw [releaseIfDecided, if_neg other] at booked
      exact ⟨_, _, booked, lost, set _, rfl, rfl, rfl⟩
    · next no =>
      exact ⟨_, _, h.settle at_k other (by simpa [standing] using no) rfl (by simp), lost, set _, rfl, rfl, rfl⟩
  · next other =>
    have same : s.tracker.ring.set k r = s.tracker.ring := by
      obtain ⟨inRange, rfl⟩ := List.getElem?_eq_some_iff.mp at_k
      exact List.set_getElem_self inRange
    exact ⟨s, r, h, .of_phase (leaves.resolve_left other), same.symm, rfl, rfl, rfl⟩

/-- R10 to R12: the record leaving Z holds nothing once it is retired, and the new record holds nothing yet. -/
theorem moveUp (h : Accounts parts s) (length : s.tracker.ring.length = s.z + 1)
    (leaves : ∀ r, s.tracker.ring[s.z]? = some r → r.phase = .retained ∨ r.phase.stands = false)
    (issued : ∀ name ∈ s.ringNames, s.tracker.hasIssued name) : Accounts parts (moveUp s) := by
  obtain ⟨r, at_z⟩ : ∃ r, s.tracker.ring[s.z]? = some r := by simp [length]
  obtain ⟨u, r', accounts, idle, ring, outlets, tables, sup⟩ :=
    h.retired at_z (leaves r at_z) (s.tracker.ring.take s.z)
  obtain ⟨nextSeq, nextIdent⟩ := retire_names r (setRing (s.tracker.ring.take s.z) s)
  have before : u.tracker.ring.Perm (r' :: s.tracker.ring.take s.z) := by
    have split : s.tracker.ring.set s.z r' = s.tracker.ring.take s.z ++ [r'] := by
      rw [List.set_eq_take_append_cons_drop, if_pos (by omega), List.drop_eq_nil_of_le (by omega)]
    rw [ring, split]
    exact List.perm_append_singleton r' _
  have issue : (retire r (setRing (s.tracker.ring.take s.z) s)).tracker.issue = s.tracker.issue := by
    simp only [Tracker.issue, nextSeq]
    rfl
  have made (phase : Phase) (flag : phase = .open ∨ phase = .void) :
      Accounts parts (moveLoadPocket 1 (newRecord phase (retire r (setRing (s.tracker.ring.take s.z) s)))) := by
    refine accounts.exchange (by simp [outlets]) (by simp [tables]) (by simp [sup]) (by simp [sup]) before
      (new := .fresh s.tracker.issue (if s.tracker.issue.isSome then 0 else s.tracker.nextIdent) phase) ?_ idle
      (.of_phase ?_) ⟨fun _ => rfl, ?_⟩ fun taken => ?_
    · simp only [moveLoadPocket, newRecord, issue, nextIdent, retire_ring]
      exact .refl _
    · rcases flag with rfl | rfl <;> rfl
    · rcases flag with rfl | rfl <;> simp [PocketRecord.fresh]
    · obtain ⟨old, inRing, same⟩ := List.mem_map.mp taken
      have named : old.name ∈ s.ringNames := List.mem_map_of_mem (List.mem_of_mem_take inRing)
      exact Tracker.not_hasIssued_fresh s.tracker phase (same ▸ issued _ named)
  unfold Machine.moveUp
  simp only [at_z]
  refine made _ ?_
  split
  · exact .inr rfl
  · exact .inl rfl

/-! ### The ring moves down -/

/-- R20: the record leaving offset 0 is released and booked as it must be; with it settled in its place. -/
theorem discardBottom {r : PocketRecord} (h : Accounts parts s) (at_0 : s.tracker.ring[0]? = some r) :
    Accounts parts (Machine.modRing 0 (.settle .lost) (discardBottom r s)) := by
  unfold Machine.discardBottom
  dsimp only
  split
  · next standing => exact h.lose at_0 standing _ _
  · next no =>
    have none : ((r.settle .lost).standing.toNat : Int) + parts = r.standing.toNat + parts := by
      rw [PocketRecord.standing_eq_false rfl, (Bool.not_eq_true _).mp no]
    unfold releaseIfDecided
    split
    · next decided =>
      exact h.release at_0 decided (by simp [PocketRecord.settle]) (.of_phase (by simp [PocketRecord.settle])) rfl none
    · next other =>
      exact h.modRing at_0 other (by simp [PocketRecord.settle]) (.of_phase (by simp [PocketRecord.settle])) rfl none

/-- R9, R20, R21: the ring loses its bottom record and takes back one that holds nothing. -/
theorem moveDown {r : PocketRecord} {rest : List PocketRecord} (h : Accounts parts s) (ring : s.tracker.ring = r :: rest)
    (stack : ∀ top ∈ s.tracker.stack, top.Idle ∧ top.Flagged)
    (names : ((rest ++ s.tracker.stack).map PocketRecord.name).Nodup)
    (issued : ∀ name ∈ s.ringNames, s.tracker.hasIssued name) :
    Accounts parts (moveLoadPocket (-1) (popToZ (setRing rest (Machine.discardBottom r s)))) := by
  have settled := h.discardBottom (r := r) (by simp [ring])
  have before : (Machine.modRing 0 (.settle .lost) (Machine.discardBottom r s)).tracker.ring.Perm
      (r.settle .lost :: rest) := by
    rw [modRing_ring, discardBottom_tracker, ring]
    exact .refl _
  have exchanged {new : PocketRecord} {t : State} (ringAfter : t.tracker.ring = rest ++ [new])
      (outlets : t.outlets = (Machine.discardBottom r s).outlets) (tables : t.tables = (Machine.discardBottom r s).tables)
      (sup : t.sup = (Machine.discardBottom r s).sup) (idle : new.Idle) (flag : new.Flagged)
      (name : new.name ∉ rest.map PocketRecord.name) : Accounts parts t :=
    settled.exchange outlets (by rw [tables]; rfl) (by rw [sup]; rfl) (by rw [sup]; rfl) before
      (ringAfter ▸ List.perm_append_singleton new rest) (.of_phase rfl) idle flag name
  unfold popToZ
  split
  · next top below atTop =>
    have onStack : s.tracker.stack = top :: below := by simpa [setRing] using atTop
    obtain ⟨idle, flag⟩ := stack top (by simp [onStack])
    refine exchanged rfl rfl rfl rfl idle flag fun taken => ?_
    rw [onStack, List.map_append, List.nodup_append] at names
    exact names.2.2 _ taken _ (by simp) rfl
  · refine exchanged rfl rfl rfl rfl (.of_phase rfl) ⟨fun _ => rfl, by simp [PocketRecord.fresh]⟩ fun taken => ?_
    have named : RecordName.unnumbered s.tracker.nextIdent ∈ s.ringNames := by
      rw [State.ringNames, ring]
      exact List.mem_cons_of_mem _ (by simpa [PocketRecord.fresh, PocketRecord.name, setRing] using taken)
    exact absurd (issued _ named) (Nat.lt_irrefl _)

/-! ### HOME and the deadlines -/

/-- R13: a record under suspicion stands exactly as it stood, in a phase in which its flag is right. -/
theorem suspect_cases (r : PocketRecord) :
    r.suspect = r ∧ (r.counted = false ∨ r.phase ≠ .held ∧ r.phase ≠ .decided) ∨
    r.suspect = r.strand .trackSuspect ∧ r.counted = true ∧ (r.phase = .held ∨ r.phase = .decided) ∨
    r.suspect = { r with phase := .void, reason := some .trackSuspect } ∧ r.phase = .open := by
  unfold PocketRecord.suspect
  cases phase : r.phase <;> cases counted : r.counted <;> simp

theorem suspect_standing (r : PocketRecord) : r.suspect.standing = r.standing := by
  rcases suspect_cases r with ⟨e, _⟩ | ⟨e, _, held | decided⟩ | ⟨e, phase⟩
  · rw [e]
  · rw [e, PocketRecord.standing_of_stands rfl, PocketRecord.standing_of_stands (by rw [held]; rfl)]
    rfl
  · rw [e, PocketRecord.standing_of_stands rfl, PocketRecord.standing_of_stands (by rw [decided]; rfl)]
    rfl
  · rw [e, PocketRecord.standing_eq_false rfl, PocketRecord.standing_eq_false (by rw [phase]; rfl)]

theorem suspect_flagged {r : PocketRecord} (h : r.Flagged) : r.suspect.Flagged := by
  rcases suspect_cases r with ⟨e, _⟩ | ⟨e, _⟩ | ⟨e, phase⟩
  · rwa [e]
  · rw [e]
    exact .of_phase (by simp [PocketRecord.strand])
  · rw [e]
    exact ⟨fun _ => h.uncounted (.inl phase), by simp⟩

theorem suspect_name (r : PocketRecord) : r.suspect.name = r.name := by
  rcases suspect_cases r with ⟨e, _⟩ | ⟨e, _⟩ | ⟨e, _⟩ <;> rw [e] <;> rfl

/-- A DECIDED record is either released and suspect, or uncounted and stays DECIDED. -/
theorem suspect_decidedFor (r : PocketRecord) (n : Fin 16) :
    (r.decidedFor n).toNat = (r.suspect.decidedFor n).toNat + (r.counted && r.decidedFor n).toNat := by
  rcases suspect_cases r with ⟨e, uncounted | ⟨_, phase⟩⟩ | ⟨e, counted, _⟩ | ⟨e, phase⟩
  · rw [e, uncounted]
    rfl
  · rw [e, PocketRecord.decidedFor_eq_false phase]
    simp
  · rw [e, PocketRecord.decidedFor_eq_false (r := r.strand _) (by simp [PocketRecord.strand]), counted]
    simp
  · rw [e, PocketRecord.decidedFor_eq_false (r := r) (by simp [phase]), PocketRecord.decidedFor_eq_false (by simp)]
    simp

/-- R13: the releases of a list of records take from each outlet as many reservations as counted records name it. -/
theorem releases (records : List PocketRecord) (s : State) :
    let t := records.foldl (fun s r => if r.counted then releaseIfDecided r s else s) s
    (∀ n : Fin 16, s.outlets[n].sameBooks t.outlets[n] ∧
        t.outlets[n].reserved = s.outlets[n].reserved - (records.filter fun r => r.counted && r.decidedFor n).length)
      ∧ t.tracker = s.tracker ∧ t.sup = s.sup ∧ t.tables = s.tables := by
  induction records generalizing s with
  | nil => exact ⟨fun n => ⟨.refl _, rfl⟩, rfl, rfl, rfl⟩
  | cons r rest ih =>
    obtain ⟨outlets, tracker, sup, tables⟩ := ih (if r.counted then releaseIfDecided r s else s)
    by_cases counted : r.counted ∧ r.phase = .decided
    · have first : (if r.counted then releaseIfDecided r s else s) = Machine.release r s := by simp [releaseIfDecided, counted]
      rw [first] at outlets tracker sup tables
      simp only [List.foldl_cons, first]
      refine ⟨fun n => ?_, by rw [tracker, release_tracker], by rw [sup, release_sup], by rw [tables, release_tables]⟩
      obtain ⟨books, reserved⟩ := outlets n
      refine ⟨(release_same r s n n.isLt).trans books, ?_⟩
      rw [reserved, Ledger.release_reserved counted.2]
      cases named : r.decidedFor n <;> simp [counted.1, named]
      omega
    · have first : (if r.counted then releaseIfDecided r s else s) = s := by
        split
        · next yes => rw [releaseIfDecided, if_neg fun decided => counted ⟨yes, decided⟩]
        · rfl
      rw [first] at outlets tracker sup tables
      simp only [List.foldl_cons, first]
      refine ⟨fun n => ⟨(outlets n).1, ?_⟩, tracker, sup, tables⟩
      have notReleased : (r.counted && r.decidedFor n) = false := by
        by_contra both
        simp only [Bool.not_eq_false, Bool.and_eq_true, PocketRecord.decidedFor_iff] at both
        exact counted ⟨both.1, both.2.1⟩
      simpa [notReleased] using (outlets n).2

/-- Every counted DECIDED record is released as it becomes suspect. -/
theorem suspects (u : State) {t : State} (h : Accounts parts u)
    (released : t = u.tracker.ring.foldl (fun s r => if r.counted then releaseIfDecided r s else s) u) :
    Accounts parts (setRing (t.tracker.ring.map PocketRecord.suspect) t) := by
  obtain ⟨outlets, tracker, sup, tables⟩ := releases u.tracker.ring u
  rw [← released] at outlets tracker sup tables
  have decided (records : List PocketRecord) (n : Fin 16) :
      (records.filter fun r => r.decidedFor n).length = ((records.map PocketRecord.suspect).filter fun r => r.decidedFor n).length
        + (records.filter fun r => r.counted && r.decidedFor n).length := by
    induction records with
    | nil => rfl
    | cons r rest ih =>
      have head := suspect_decidedFor r n
      cases h1 : r.decidedFor n <;> cases h2 : r.suspect.decidedFor n <;> cases h3 : r.counted <;>
        simp_all <;> omega
  refine { reserved := fun n => ?_, capacity := fun n cfg entry sweep => ?_, balance := ?_, flagged := ?_, names := ?_ }
  · obtain ⟨books, reserved⟩ := outlets n
    have queue : t.outlets[n].queue = u.outlets[n].queue := books.2.2.2.2
    have before := h.reserved n
    have split := decided u.tracker.ring n
    simp only [State.decidedCount, setRing_outlets, setRing_ring, tracker, queue, reserved] at before ⊢
    omega
  · obtain ⟨books, reserved⟩ := outlets n
    have committed : t.outlets[n].committed = u.outlets[n].committed := books.2.1
    have before := h.capacity n cfg (by simpa [State.outletEntry, tables] using entry) sweep
    simp only [setRing_outlets, committed, reserved]
    omega
  · have standing : (setRing (t.tracker.ring.map PocketRecord.suspect) t).standingCount = u.standingCount := by
      simp only [State.standingCount, setRing_ring, tracker, ← List.countP_eq_length_filter, List.countP_map]
      exact congrArg (u.tracker.ring.countP ·) (funext suspect_standing)
    refine h.balance.of_ring (by simp [sup]) (by simp [sup]) (fun n => (outlets n).1.2.2.1) ?_
    have entries := State.sumOutlets_congr (s := u) (t := setRing (t.tracker.ring.map PocketRecord.suspect) t)
      fun n => Outlet.countedEntries_congr (outlets n).1.2.2.2.2
    omega
  · refine State.flagged_iff.mpr fun r hr => ?_
    obtain ⟨r, inRing, rfl⟩ := List.mem_map.mp (by simpa [tracker] using hr)
    exact suspect_flagged (State.flagged_iff.mp h.flagged r inRing)
  · have same : (setRing (t.tracker.ring.map PocketRecord.suspect) t).ringNames = u.ringNames := by
      simp only [State.ringNames, setRing_ring, tracker, List.map_map]
      exact congrArg (u.tracker.ring.map ·) (funext suspect_name)
    rw [same]
    exact h.names

theorem zeroLoadPocket_account (s : State) :
    SameAccount s { s with tracker := { s.tracker with loadPocket := some 0 } } := ⟨rfl, rfl, rfl, rfl, fun _ => .refl _⟩

/-- R13. -/
theorem homeMismatch (h : Accounts parts s) : Accounts parts (homeMismatch s) :=
  suspects _ ((h.congr (raiseFault_account s _ _ _)).congr (zeroLoadPocket_account _)) rfl

theorem compareHome (home : Bool) (h : Accounts parts s) : Accounts parts (compareHome home s) := by
  unfold Machine.compareHome
  split
  · exact h
  · exact h.homeMismatch

/-- R14: an OPEN record past its contact window becomes VOID. -/
theorem contactDeadline (h : Accounts parts s) : Accounts parts (contactDeadline s) := by
  unfold Machine.contactDeadline
  split
  · next st _ =>
    cases at_k : s.tracker.ring[st.offset + st.allowance + 1]? with
    | none => rwa [modRing_of_none _ at_k]
    | some r =>
      have flag := (h.flagged _ r at_k).uncounted
      by_cases isOpen : r.phase = .open
      · refine h.modRing at_k (by simp [isOpen]) (by simp [isOpen]) ?_ ?_ ?_
        · exact ⟨fun _ => by simpa [isOpen] using flag (.inl isOpen), by simp [isOpen]⟩
        · simp [isOpen, PocketRecord.name]
        · simp [isOpen, PocketRecord.standing, Phase.stands]
      · have same : s.tracker.ring.modify (st.offset + st.allowance + 1)
            (fun r => if r.phase = .open then { r with phase := .void, reason := some .late } else r) = s.tracker.ring := by
          obtain ⟨inRange, rfl⟩ := List.getElem?_eq_some_iff.mp at_k
          rw [List.modify_eq_set_getElem?, at_k]
          simp [isOpen]
        exact h.congr ⟨same, rfl, rfl, rfl, fun _ => .refl _⟩
  · exact h

/-- R15, R48: a HELD record past its window takes its final verdict. -/
theorem verdictDeadline (st : Station) (h : Accounts parts s) (sweep : s.hasSweep) :
    Accounts parts (verdictDeadline st s) := by
  unfold Machine.verdictDeadline
  split
  · split
    · next r at_k =>
      split
      · next late => exact h.finalVerdict sweep at_k late.1 _ _
      · exact h
    · exact h
  · exact h

theorem deadlines (h : Accounts parts s) (sweep : s.hasSweep) : Accounts parts (deadlines s) :=
  ((h.contactDeadline.verdictDeadline .recheck (sweep.congr (by simp))).verdictDeadline .value (sweep.congr (by simp)))

/-! ### Passes and arrivals -/

theorem pass (n : Fin 16) (h : Accounts parts s) : Accounts parts (pass n s) := by
  unfold Machine.pass
  split
  · split
    · next r at_k =>
      split
      · next decided => exact h.strand_release _ at_k (PocketRecord.decidedFor_iff.mp decided).1
      · exact h
    · exact h
  · exact h

theorem passes (h : Accounts parts s) : Accounts parts (passes s) :=
  congr (endSlots_account _) (List.foldlRecOn (motive := Accounts parts) _ _ h fun _ hs n _ => hs.pass n)

theorem mayFire_of_firesFor {n : Fin 16} {k : Nat} {r : PocketRecord} (h : Accounts parts s)
    (at_k : s.tracker.ring[k]? = some r) (fires : s.firesFor n r) : s.mayFire n r.name := by
  intro j r' offset at_j
  obtain rfl := ringOffset_name h.names at_k offset
  obtain rfl := Option.some.inj (at_k.symm.trans at_j)
  exact fires

theorem arrival {n : Fin 16} {e : OutletEntry} {r : PocketRecord} (h : Accounts parts s)
    (at_k : s.tracker.ring[e.offset]? = some r) (decided : r.decidedFor n = true) : Accounts parts (arrival n e r s) := by
  have fires := h.mayFire_of_firesFor at_k (.inl decided)
  unfold Machine.arrival
  split
  · exact h
  · split
    · exact h.startDelay _ fires
    · exact h.startDelay _ fires
    · exact h.strand_release _ at_k (PocketRecord.decidedFor_iff.mp decided).1
    · exact h

theorem firesFor_of_sweepable {n : Fin 16} {r : PocketRecord} (sweep : s.isSweep n = true)
    (sweepable : r.sweepable n = true) : s.firesFor n r := by
  unfold PocketRecord.sweepable at sweepable
  split at sweepable
  · exact .inl sweepable
  · next stranded => exact .inr ⟨sweep, .inl stranded⟩
  · next void => exact .inr ⟨sweep, .inr void⟩
  all_goals exact absurd sweepable Bool.false_ne_true

theorem handOff (n : Fin 16) (h : Accounts parts s) : Accounts parts (handOff n s) := by
  unfold Machine.handOff
  split
  · next e entry =>
    split
    · next r at_k =>
      split
      · exact h
      · split
        · next sweep =>
          split
          · next taken =>
            have isSweep : s.isSweep n = true := by simp [State.isSweep, entry, sweep]
            rw [Bool.and_eq_true] at taken
            exact h.startDelay _ (h.mayFire_of_firesFor at_k (firesFor_of_sweepable isSweep taken.2))
          · exact h
        · split
          · next decided => exact h.arrival at_k decided
          · exact h
    · exact h
  · exact h

theorem arrivals (h : Accounts parts s) : Accounts parts (arrivals s) :=
  List.foldlRecOn (motive := Accounts parts) _ _ h fun _ hs n _ => hs.handOff n

end Accounts

end Sys2Proof.Machine

/-! The accounts when a MEAS frame is applied, when a lot opens, ends and closes, and what every step makes of the account
law. -/

namespace Sys2Proof.Machine

/-! ### MEAS -/

theorem modRing_at {s : State} {k : Nat} {r : PocketRecord} (f : PocketRecord → PocketRecord)
    (at_k : s.tracker.ring[k]? = some r) : (modRing k f s).tracker.ring[k]? = some (f r) := by
  rw [modRing_get, if_pos rfl, at_k]
  rfl

/-- R33: a record takes a contact result when it is OPEN or VOID, and another when it is HELD. -/
theorem PocketRecord.phase_of_refusal {r : PocketRecord} {st : Station} (accepted : r.refusal st = none) :
    st = .contact ∧ (r.phase = .open ∨ r.phase = .void) ∨ st ≠ .contact ∧ r.phase = .held := by
  unfold PocketRecord.refusal at accepted
  cases has : r.hasResult st with
  | true => simp [has] at accepted
  | false => cases phase : r.phase <;> cases st <;> simp_all

namespace Accounts

variable {s : State} {k : Nat} {r : PocketRecord}

/-- R36: a record that is counted brings a part into hand. -/
theorem countPart (h : Accounts 0 s) (at_k : s.tracker.ring[k]? = some r) (idle : r.phase.stands = false) :
    Ledger 1 (countPart k s) := by
  have standing (c : Bool) : PocketRecord.standing { r with counted := c } = false := PocketRecord.standing_eq_false idle
  have entered : Ledger 1 { s with sup := { s.sup with present := countUp s.sup.present } } := by
    refine ⟨h.reserved, h.capacity, fun free => ?_⟩
    obtain ⟨total, below⟩ := countUp_eq (n := s.sup.present) free.1
    have balance : (s.sup.present : Int) = s.accounted + 0 := h.balance ⟨below, free.2.1, free.2.2⟩
    have same : State.accounted { s with sup := { s.sup with present := countUp s.sup.present } } = s.accounted := rfl
    rw [same]
    simp only [total]
    push_cast
    omega
  exact entered.modRing at_k (fun _ => rfl) (by rw [standing, PocketRecord.standing_eq_false idle])

theorem countPart_at (at_k : s.tracker.ring[k]? = some r) :
    (Machine.countPart k s).tracker.ring[k]? = some { r with counted := true } :=
  modRing_at (s := { s with sup := _ }) (fun r => { r with counted := true }) at_k

theorem countPart_flaggedBut (h : s.flagged) : (Machine.countPart k s).flaggedBut k :=
  State.flaggedBut.modRing (s := { s with sup := _ }) (h.but k) _

theorem countPart_ringNames : (Machine.countPart k s).ringNames = s.ringNames :=
  ringNames_modRing (s := { s with sup := _ }) (f := fun r => { r with counted := true }) fun _ _ => rfl

/-- R34, R35: a record is counted and takes its final verdict at once. -/
theorem countPart_finalVerdict (h : Accounts 0 s) (sweep : s.hasSweep) (at_k : s.tracker.ring[k]? = some r)
    (idle : r.phase.stands = false) (v : Verdict) (reason : Reason) :
    Accounts 0 (Machine.finalVerdict k v reason (Machine.countPart k s)) where
  toLedger := by
    refine (h.countPart at_k idle).finalVerdict (sweep.congr (by simp)) (countPart_at at_k) (fun decided => ?_) v reason ?_
    · simp [show r.phase = .decided from decided, Phase.stands] at idle
    · rw [PocketRecord.standing_eq_false (r := { r with counted := true }) idle]
      rfl
  flagged := (countPart_flaggedBut h.flagged).finalVerdict (countPart_at at_k) rfl v reason
  names := by
    rw [ringNames_finalVerdict, countPart_ringNames]
    exact h.names

theorem contactOpen (status : Status) (h : Accounts 0 s) (sweep : s.hasSweep) (at_k : s.tracker.ring[k]? = some r)
    (phase : r.phase = .open) : Accounts 0 (contactOpen k status s) := by
  have idle : r.phase.stands = false := by rw [phase]; rfl
  cases status with
  | part =>
    have counted := countPart_at at_k
    refine ⟨(h.countPart at_k idle).modRing counted (fun n => ?_) ?_,
      (countPart_flaggedBut h.flagged).flagged_modRing fun r' at_k' => ?_, ?_⟩
    · rw [PocketRecord.decidedFor_eq_false (by simp), PocketRecord.decidedFor_eq_false (by simp [phase])]
    · rw [PocketRecord.standing_of_stands rfl, PocketRecord.standing_eq_false (r := { r with counted := true }) idle]
      rfl
    · obtain rfl := Option.some.inj (counted.symm.trans at_k')
      exact ⟨by simp, fun _ => rfl⟩
    · unfold Machine.contactOpen
      rw [ringNames_modRing (by intros; rfl), countPart_ringNames]
      exact h.names
  | noPart =>
    refine h.modRing at_k (by simp [phase]) (by simp) ⟨fun _ => (h.flagged k r at_k).uncounted (.inl phase), by simp⟩ rfl ?_
    rw [PocketRecord.standing_eq_false rfl, PocketRecord.standing_eq_false idle]
  | contactFail => exact h.countPart_finalVerdict sweep at_k idle _ _
  | ok | overHigh | overLow | meterError => exact h

theorem contactVoid (status : Status) (h : Accounts 0 s) (sweep : s.hasSweep) (at_k : s.tracker.ring[k]? = some r)
    (phase : r.phase = .void) : Accounts 0 (contactVoid k status s) := by
  cases status with
  | part | contactFail => exact h.countPart_finalVerdict sweep at_k (by rw [phase]; rfl) _ _
  | noPart | ok | overHigh | overLow | meterError => exact h

/-- A HELD record is marked, and may take its final verdict then. -/
theorem mark_finalVerdict {f : PocketRecord → PocketRecord} (h : Accounts 0 s) (sweep : s.hasSweep)
    (at_k : s.tracker.ring[k]? = some r) (held : r.phase = .held) (phase : ∀ r, (f r).phase = r.phase)
    (target : ∀ r, (f r).target = r.target) (counted : ∀ r, (f r).counted = r.counted) (name : ∀ r, (f r).name = r.name)
    (v : Verdict) (reason : Reason) :
    Accounts 0 (Machine.modRing k f s) ∧ Accounts 0 (Machine.finalVerdict k v reason (Machine.modRing k f s)) := by
  have marked := h.modRing_marks (k := k) phase target counted name
  exact ⟨marked, marked.finalVerdict (sweep.congr (by simp)) (modRing_at f at_k) (by rw [phase, held]) v reason⟩

theorem valueOk (value : Nat × Int) (h : Accounts 0 s) (sweep : s.hasSweep) (at_k : s.tracker.ring[k]? = some r)
    (held : r.phase = .held) : Accounts 0 (valueOk k value s) := by
  unfold Machine.valueOk
  dsimp only
  split
  · exact (h.mark_finalVerdict sweep at_k held (by intros; rfl) (by intros; rfl) (by intros; rfl) (by intros; rfl) _ _).2
  · unfold classify
    split
    · exact (h.mark_finalVerdict sweep at_k held (by intros; rfl) (by intros; rfl) (by intros; rfl) (by intros; rfl) _ _).2
    · split
      · exact modRing_marks (h.modRing_marks (by intros; rfl) (by intros; rfl) (by intros; rfl) (by intros; rfl))
          (by intros; rfl) (by intros; rfl) (by intros; rfl) (by intros; rfl)
      · exact (h.mark_finalVerdict sweep at_k held (by intros; rfl) (by intros; rfl) (by intros; rfl) (by intros; rfl) _ _).2

theorem valueResult (m : Meas) (h : Accounts 0 s) (sweep : s.hasSweep) (at_k : s.tracker.ring[k]? = some r)
    (held : r.phase = .held) : Accounts 0 (valueResult k m s) := by
  unfold Machine.valueResult
  split
  · exact h.valueOk _ sweep at_k held
  · exact h.finalVerdict sweep at_k held _ _
  · exact h.finalVerdict sweep at_k held _ _
  · exact h.finalVerdict sweep at_k held _ _
  all_goals exact h

theorem recheckResult (before : PocketRecord) (m : Meas) (h : Accounts 0 s) (sweep : s.hasSweep)
    (at_k : s.tracker.ring[k]? = some r) (held : r.phase = .held) : Accounts 0 (recheckResult k before m s) := by
  unfold Machine.recheckResult
  split
  · have marked (drift : Nat) (v : Verdict) (reason : Reason) :=
      h.mark_finalVerdict (f := fun r => { r with drift := some drift }) sweep at_k held (by intros; rfl) (by intros; rfl)
        (by intros; rfl) (by intros; rfl) v reason
    unfold judgeDrift
    dsimp only
    split
    · exact (marked _ _ _).2
    · split
      · exact (marked _ _ _).2
      · exact (marked _ .retest .meterError).1
  · exact h.finalVerdict sweep at_k held _ _
  · exact h.finalVerdict sweep at_k held _ _
  · exact h.finalVerdict sweep at_k held _ _
  all_goals exact h

theorem applyResult {m : Meas} (h : Accounts 0 s) (sweep : s.hasSweep) (at_k : s.tracker.ring[k]? = some r)
    (accepted : r.refusal m.station = none) : Accounts 0 (applyResult k r m s) := by
  have added : Accounts 0 (addResult k m s) :=
    h.modRing_marks (by intros; rfl) (by intros; rfl) (by intros; rfl) (by intros; rfl)
  have sweep' : (addResult k m s).hasSweep := sweep.congr (by simp)
  have at_k' := modRing_at (fun r => { r with results := r.results ++ [m.result] }) at_k
  have phase := PocketRecord.phase_of_refusal accepted
  unfold Machine.applyResult
  split
  · next contact =>
    split
    · next isOpen => exact added.contactOpen _ sweep' at_k' isOpen
    · next notOpen =>
      have void : r.phase = .void := by simpa [contact, notOpen] using phase
      exact added.contactVoid _ sweep' at_k' void
  · next value => exact added.valueResult m sweep' at_k' (by simpa [value] using phase)
  · next recheck => exact added.recheckResult r m sweep' at_k' (by simpa [recheck] using phase)

theorem takeMeas (f : InFrame) (h : Accounts 0 s) (sweep : s.lotOpen = true → s.hasSweep) : Accounts 0 (takeMeas f s) := by
  have discarded (reason : Discard) : Accounts 0 (discard reason s) := h.congr (discard_account s reason)
  unfold Machine.takeMeas
  split
  · exact discarded _
  next lot =>
  split
  · exact discarded _
  split
  · exact discarded _
  split
  · unfold placeResult
    split
    · exact discarded _
    · split
      · next r at_k =>
        split
        · exact discarded _
        · next accepted => exact h.applyResult (sweep (by simpa using lot)) at_k accepted
      · exact h
  · exact discarded _

end Accounts

/-! ### Clearance -/

/-- The accounts at the end of an event: what waits in stage SUMMARY has settled (R153, R154). -/
structure Settled (s : State) : Prop extends Accounts 0 s where
  summary : s.stage = some .summary → s.settleComplete = true

theorem State.settleComplete_iff {s : State} : s.settleComplete = true ↔
    (∀ n : Fin 16, s.outlets[n].queue = []) ∧ ∀ r ∈ s.tracker.ring, r.standing = false := by
  simp only [State.settleComplete, Bool.and_eq_true, List.all_eq_true, List.isEmpty_iff, Bool.not_eq_true']
  exact and_congr_left fun _ => ⟨fun h n => h n (mem_allOutlets n), fun h n _ => h n⟩

theorem State.settleComplete_congr {s t : State} (ring : t.tracker.ring = s.tracker.ring)
    (queues : ∀ n : Fin 16, t.outlets[n].queue = s.outlets[n].queue) : t.settleComplete = s.settleComplete := by
  rw [Bool.eq_iff_iff, State.settleComplete_iff, State.settleComplete_iff, ring]
  simp only [queues]

theorem SameAccount.settleComplete {s t : State} (h : SameAccount s t) : t.settleComplete = s.settleComplete :=
  State.settleComplete_congr h.ring fun n => (h.outlets n).queue

/-- An empty ring and outlets that hold nothing. -/
theorem Accounts.of_empty {s : State} (ring : s.tracker.ring = [])
    (outlets : ∀ n : Fin 16, s.outlets[n].reserved = 0 ∧ s.outlets[n].queue = []) (balance : s.Balanced 0) :
    Accounts 0 s where
  reserved n := by rw [(outlets n).1, (outlets n).2, State.decidedCount, ring]; rfl
  capacity n _ _ _ := .inl (outlets n).1
  balance := balance
  flagged := State.flagged_iff.mpr (by simp [ring])
  names := by simp [State.ringNames, ring]

namespace Settled

variable {s t : State}

theorem congr (same : SameAccount s t) (stage : t.stage = s.stage) (h : Settled s) : Settled t :=
  ⟨h.toAccounts.congr same, fun summary => by rw [same.settleComplete]; exact h.summary (stage ▸ summary)⟩

theorem of_sameBlocks (same : SameBlocks s t) (h : Settled s) : Settled t :=
  h.congr same.account (by rw [State.stage, same.sup, State.stage])

/-- R155: as the lot closes nothing stands, waits or is reserved any more. -/
theorem closeLot (kind : EndKind) (h : Settled s) (complete : s.settleComplete = true) : Settled (closeLot kind s) := by
  obtain ⟨queues, ring⟩ := State.settleComplete_iff.mp complete
  have stopped := stopOutlets_account (enqueue 0 (.lotSummary (s.lotSummary kind)) s)
  have undecided (n : Fin 16) : s.decidedCount n = 0 := by
    rw [State.decidedCount, List.length_eq_zero_iff, List.filter_eq_nil_iff]
    intro r hr decided
    obtain ⟨k, at_k⟩ := List.getElem?_of_mem hr
    have phase := (PocketRecord.decidedFor_iff.mp decided).1
    have standing := PocketRecord.standing_of_stands (r := r) (by rw [phase]; rfl)
    simp [ring r hr, (h.flagged k r at_k).counted (.inr phase)] at standing
  have outlets (n : Fin 16) : (Machine.closeLot kind s).outlets[n].reserved = 0 ∧ (Machine.closeLot kind s).outlets[n].queue = [] := by
    have before := h.reserved n
    rw [undecided, queues] at before
    exact ⟨(stopped.outlets n).reserved.trans before, (stopped.outlets n).queue.trans (queues n)⟩
  have closed : Accounts 0 (Machine.closeLot kind s) := by
    refine .of_empty rfl outlets (h.balance.of_ring rfl rfl (fun n => (stopped.outlets n).lotTotal) ?_)
    have entries (t : State) (empty : ∀ n : Fin 16, t.outlets[n].queue = []) : t.sumOutlets Outlet.countedEntries = 0 :=
      State.sumOutlets_eq_zero fun n => by rw [Outlet.countedEntries, empty]; rfl
    have standing : s.standingCount = 0 := by
      rw [State.standingCount, List.length_eq_zero_iff, List.filter_eq_nil_iff]
      intro r hr
      simp [ring r hr]
    rw [entries _ fun n => (outlets n).2, entries s queues, standing]
    rfl
  exact ⟨closed, fun summary => by simp [Machine.closeLot, State.stage, raiseNotice] at summary⟩

theorem summaryStep (h : Settled s) : Settled (summaryStep s) := by
  unfold Machine.summaryStep
  split
  · next kind close =>
    refine h.closeLot kind (h.summary ?_)
    unfold State.closeKind at close
    split at close
    · next c clearance =>
      split at close
      · next summary => rw [State.stage, clearance, Option.map_some, summary.1]
      · simp at close
    · simp at close
  · exact h

/-- R149, R153, R154: after the stage tests a lot in SUMMARY has settled. -/
theorem advanceClearance (h : Accounts 0 s) : Settled (advanceClearance s) := by
  have staged (c : Prop) [Decidable c] (stage : Stage) (t : State) : SameAccount t (if c then setStage stage t else t) := by
    split
    · exact setStage_account t stage
    · exact .refl t
  have stage_setStage (stage : Stage) (t : State) : (setStage stage t).stage = t.stage.map fun _ => stage := by
    simp only [State.stage, setStage, Option.map_map]
    rfl
  refine summaryStep ⟨((h.congr (staged _ _ s)).congr (staged _ _ _)).congr (staged _ _ _), ?_⟩
  generalize runOutStep s = u
  intro summary
  have unsettled := staged (u.stage = some .summary ∧ ¬ u.settleComplete) .settle u
  have settled := staged ((unsettleStep u).stage = some .settle ∧ (unsettleStep u).settleComplete) .summary (unsettleStep u)
  have same : (settleStep (unsettleStep u)).settleComplete = u.settleComplete :=
    settled.settleComplete.trans unsettled.settleComplete
  rw [same]
  by_contra incomplete
  have unsettledIncomplete : ¬ (unsettleStep u).settleComplete = true := fun complete =>
    incomplete (unsettled.settleComplete ▸ complete)
  rw [settleStep, if_neg (fun ⟨_, complete⟩ => unsettledIncomplete complete), unsettleStep] at summary
  split at summary
  · rw [stage_setStage] at summary
    cases u.stage <;> simp at summary
  · next waits => exact waits ⟨summary, incomplete⟩

theorem raiseFault (code : FaultCode) (pocket : Nat) (seq : Option Nat) (h : Settled s) :
    Settled (raiseFault code pocket seq s) :=
  h.congr (raiseFault_account s _ _ _) (by rw [State.stage, raiseFault_sup, State.stage])

/-- Nothing is counted, held or reserved, and no clearance runs. -/
theorem of_zero (ring : s.tracker.ring = []) (present : s.sup.present = 0) (unaccounted : s.sup.unaccounted = 0)
    (clearance : s.sup.clearance = none)
    (outlets : ∀ n : Fin 16, s.outlets[n].reserved = 0 ∧ s.outlets[n].queue = [] ∧ s.outlets[n].lotTotal = 0) : Settled s where
  toAccounts := .of_empty ring (fun n => ⟨(outlets n).1, (outlets n).2.1⟩) fun _ => by
    have totals := State.sumOutlets_eq_zero fun n => (outlets n).2.2
    have entries := State.sumOutlets_eq_zero (count := Outlet.countedEntries) fun n => by
      rw [Outlet.countedEntries, (outlets n).2.1]; rfl
    rw [State.accounted_eq, totals, entries, present, unaccounted, State.standingCount, ring]
    rfl
  summary := by simp [State.stage, clearance]

theorem fullReset (cause : ResetCause) (held : Bool) (rate : BitRate) (address : Option (Fin 4)) (s : State) :
    Settled (fullReset cause held rate address s) :=
  of_zero rfl rfl rfl rfl fun n => by simp [Machine.fullReset, Outlet.afterReset]

theorem coreReset (s : State) : Settled (coreReset s) := by
  refine of_sameBlocks (announceStart_same _ _) (of_zero rfl rfl rfl rfl fun n => ?_)
  cases entry : s.outletEntry n <;> simp [Outlet.afterCoreReset, entry, Outlet.afterReset]

end Settled

end Sys2Proof.Machine

namespace Sys2Proof.Machine

/-! ### The ends of a lot -/

namespace Accounts

variable {s : State}

/-- R152: an abandoned run-out books what stands and empties the rest. -/
theorem abandonRunOut (h : Accounts 0 s) : Accounts 0 (abandonRunOut s) := by
  refine List.foldlRecOn (motive := Accounts 0) _ _ (h.congr (endSlots_account s)) fun s hs k _ => ?_
  unfold abandonRecord
  split
  · exact hs
  · next r at_k =>
    split
    · next standing => exact hs.lose at_k standing _ _
    · next no =>
      have idle : r.standing = false := by simpa using no
      have uncounted (stands : r.phase.stands = true) : r.counted = false :=
        (PocketRecord.standing_of_stands stands).symm.trans idle
      split
      · next phase =>
        exact hs.settle at_k (by simp [phase]) idle rfl fun _ => (hs.flagged k r at_k).uncounted (.inl phase)
      · next phase =>
        exact hs.settle at_k (by simp [phase]) idle rfl fun _ => uncounted (by rw [phase]; rfl)
      · next phase => exact hs.settle at_k (by simp [phase]) idle rfl (by simp)
      all_goals exact hs

end Accounts

/-- R130 step 2: a standing record is LOST. -/
def PocketRecord.aborted (r : PocketRecord) : PocketRecord := if r.standing then r.settle .lost else r

theorem PocketRecord.aborted_standing (r : PocketRecord) : r.aborted.standing = false := by
  unfold aborted
  split
  · exact standing_eq_false rfl
  · next no => simpa using no

theorem abortRecord_get (k j : Nat) (s : State) :
    (abortRecord k s).tracker.ring[j]? = if k = j then (s.tracker.ring[j]?).map PocketRecord.aborted
      else s.tracker.ring[j]? := by
  unfold abortRecord
  split
  · next r at_k =>
    split
    · next standing =>
      rw [modRing_get, bookRecord_tracker]
      split
      · next e =>
        subst e
        rw [at_k, Option.map_some, Option.map_some, PocketRecord.aborted, if_pos standing]
      · rfl
    · next no =>
      split
      · next e =>
        subst e
        rw [at_k, Option.map_some, PocketRecord.aborted, if_neg no]
      · rfl
  · next none =>
    split
    · next e =>
      subst e
      rw [none]
      rfl
    · rfl

/-- R130 step 2: no record of the ring stands any more. -/
theorem abortRing_standing {s : State} {r : PocketRecord} (hr : r ∈ (abortRing s).tracker.ring) : r.standing = false := by
  have fold (count j : Nat) : ((List.range count).foldl (fun s k => abortRecord k s) s).tracker.ring[j]?
      = if j < count then (s.tracker.ring[j]?).map PocketRecord.aborted else s.tracker.ring[j]? := by
    induction count with
    | zero => rfl
    | succ count ih =>
      rw [List.range_succ, List.foldl_append, List.foldl_cons, List.foldl_nil, abortRecord_get, ih]
      split
      · next e =>
        subst e
        rw [if_neg (Nat.lt_irrefl _), if_pos (Nat.lt_succ_self _)]
      · next other =>
        by_cases below : j < count
        · rw [if_pos below, if_pos (by omega)]
        · rw [if_neg below, if_neg (by omega)]
  obtain ⟨j, at_j⟩ := List.getElem?_of_mem hr
  rw [abortRing, fold] at at_j
  split at at_j
  · obtain ⟨before, _, rfl⟩ := Option.map_eq_some_iff.mp at_j
    exact before.aborted_standing
  · next beyond => simp [List.getElem?_eq_none (Nat.not_lt.mp beyond)] at at_j

/-- What a LOT_ABORT's bookings keep while they take `parts` out of their places. -/
structure Aborting (parts : Int) (s t : State) : Prop where
  balance : t.Balanced parts
  outlets : t.outlets = s.outlets
  tables : t.tables = s.tables

theorem abortRing_aborting {s : State} (h : s.Balanced 0) : Aborting 0 s (abortRing s) := by
  refine List.foldlRecOn (motive := Aborting 0 s) _ _ ⟨h, rfl, rfl⟩ fun t ht k _ => ?_
  unfold abortRecord
  split
  · next r at_k =>
    split
    · next standing =>
      have booked := ht.balance.book (t.pocketAt k) (t.trackerReport r (t.pocketAt k))
      refine ⟨booked.modRing (by simpa using at_k) ?_, ht.outlets, ht.tables⟩
      rw [standing, PocketRecord.standing_eq_false rfl]
      rfl
    · exact ht
  · exact ht

/-- No record of the ring stands. -/
def State.clearRing (s : State) : Prop := ∀ r ∈ s.tracker.ring, r.standing = false

/-- R130 step 3: a counted entry is booked, and no ring record stands for its part. -/
theorem abortEntry_aborting {s t : State} {parts : Int} (h : Aborting parts s t) (clear : t.clearRing) (n : Fin 16) (e : Entry) :
    Aborting (parts - e.counted.toNat) s (abortEntry n t e) ∧ (abortEntry n t e).clearRing := by
  have booked (pocket : Nat) (report : SortReport) : Aborting (parts - 1) s (book pocket report t) :=
    ⟨h.balance.book pocket report, h.outlets, h.tables⟩
  unfold abortEntry
  split
  · next counted =>
    rw [counted]
    split
    · next p place =>
      cases p with
      | ring k =>
        obtain ⟨r, at_k, _, phase⟩ := Accounts.firingPlace_ring place
        refine ⟨⟨(booked _ _).balance.modRing at_k ?_, h.outlets, h.tables⟩, fun r' hr' => ?_⟩
        · rw [PocketRecord.standing_eq_false rfl, PocketRecord.standing_eq_false (by rw [phase]; rfl)]
          rfl
        · obtain ⟨j, at_j⟩ := List.getElem?_of_mem hr'
          rw [modPlace, modRing_get] at at_j
          split at at_j
          · obtain ⟨_, _, rfl⟩ := Option.map_eq_some_iff.mp at_j
            exact PocketRecord.standing_eq_false rfl
          · exact clear r' (List.mem_of_getElem? at_j)
      | stack d => exact ⟨⟨(booked _ _).balance.congr (modStack_account _ _ _), h.outlets, h.tables⟩, clear⟩
    · exact ⟨booked _ _, clear⟩
  · next no => exact ⟨by simpa [no] using h, clear⟩

theorem abortQueue_aborting {s t : State} {parts : Int} (h : Aborting parts s t) (clear : t.clearRing) (n : Fin 16)
    (entries : List Entry) :
    Aborting (parts - (entries.filter Entry.counted).length) s (entries.foldl (abortEntry n) t)
      ∧ (entries.foldl (abortEntry n) t).clearRing := by
  induction entries generalizing t parts with
  | nil => exact ⟨by simpa using h, clear⟩
  | cons e rest ih =>
    obtain ⟨head, headClear⟩ := abortEntry_aborting h clear n e
    obtain ⟨tail, tailClear⟩ := ih head headClear
    refine ⟨?_, tailClear⟩
    have sum : parts - ((e :: rest).filter Entry.counted).length
        = parts - e.counted.toNat - (rest.filter Entry.counted).length := by
      cases counted : e.counted <;> simp [counted]
      omega
    rw [sum]
    exact tail

theorem abortQueues_aborting {s t : State} (h : Aborting 0 s t) (clear : t.clearRing) :
    Aborting (-(s.sumOutlets Outlet.countedEntries : Int)) s (abortQueues t) ∧ (abortQueues t).clearRing := by
  have fold (outlets : List (Fin 16)) {t : State} {parts : Int} (h : Aborting parts s t) (clear : t.clearRing) :
      Aborting (parts - ((outlets.map fun n => s.outlets[n].countedEntries).sum : Nat)) s
        (outlets.foldl (fun s n => s.outlets[n].queue.foldl (abortEntry n) s) t)
      ∧ (outlets.foldl (fun s n => s.outlets[n].queue.foldl (abortEntry n) s) t).clearRing := by
    induction outlets generalizing t parts with
    | nil => exact ⟨by simpa using h, clear⟩
    | cons n rest ih =>
      obtain ⟨head, headClear⟩ := abortQueue_aborting h clear n t.outlets[n].queue
      obtain ⟨tail, tailClear⟩ := ih head headClear
      refine ⟨?_, tailClear⟩
      have sum : parts - (((n :: rest).map fun n => s.outlets[n].countedEntries).sum : Nat)
          = parts - (t.outlets[n].queue.filter Entry.counted).length
            - ((rest.map fun n => s.outlets[n].countedEntries).sum : Nat) := by
        rw [List.map_cons, List.sum_cons, h.outlets, Outlet.countedEntries]
        omega
      rw [sum]
      exact tail
  have all := fold allOutlets h clear
  rwa [Int.zero_sub] at all

/-- R130 step 4, R131: with every part booked and the ring clear, the queues and reservations are dropped and the lot
closes. -/
theorem Settled.abortClose {s : State} (balance : s.Balanced (-(s.sumOutlets Outlet.countedEntries : Int)))
    (clear : s.clearRing) :
    Settled (abortClose (mapOutlets (fun _ o => { o with queue := [], reserved := 0 }) s)) := by
  have empty (n : Fin 16) : (Machine.abortClose (mapOutlets (fun _ o => { o with queue := [], reserved := 0 }) s)).outlets[n]
      = { s.outlets[n] with queue := [], reserved := 0 } := by
    simp [Machine.abortClose, closeTracker]
  have entries := State.sumOutlets_eq_zero (count := Outlet.countedEntries) fun n => by rw [empty n]; rfl
  have standing : s.standingCount = 0 := by
    rw [State.standingCount, List.length_eq_zero_iff, List.filter_eq_nil_iff]
    intro r hr
    simp [clear r hr]
  refine ⟨.of_empty rfl (fun n => by rw [empty]; exact ⟨rfl, rfl⟩) ?_,
    fun summary => by simp [Machine.abortClose, State.stage] at summary⟩
  refine balance.of_ring rfl rfl (fun n => by rw [empty]) ?_
  have closed : (Machine.abortClose (mapOutlets (fun _ o => { o with queue := [], reserved := 0 }) s)).standingCount = 0 := rfl
  rw [entries, standing, closed]
  omega

/-- R130, R131: an aborted lot is booked and closed. -/
theorem Accounts.abort {s : State} (h : Accounts 0 s) : Settled (abortClose (abortBookings s)) := by
  have ring := abortRing_aborting (h.congr (stopOutlets_account s)).balance
  obtain ⟨booked, clear⟩ := abortQueues_aborting ring fun _ => abortRing_standing
  have same : (stopOutlets s).sumOutlets Outlet.countedEntries
      = (abortQueues (abortRing (stopOutlets s))).sumOutlets Outlet.countedEntries :=
    State.sumOutlets_congr fun n => by rw [booked.outlets]
  exact .abortClose (same ▸ booked.balance) clear

end Sys2Proof.Machine

/-! The account law is kept: every event, from a state in which the laws hold, keeps the accounts. -/

namespace Sys2Proof.Machine

/-! ### The laws a step starts from -/

/-- The laws that the account law's step lemma is given. -/
structure Lawful (s : State) : Prop where
  geometry : GeometryLaw s
  supervisor : SupervisorLaw s
  records : RecordLaw s
  account : AccountLaw s

theorem State.lotOpen_congr {s t : State} (sup : t.sup = s.sup) : t.lotOpen = s.lotOpen := by
  simp [State.lotOpen, sup]

theorem State.entries_congr {s t : State} (outlets : t.outlets = s.outlets) : t.entries = s.entries := by
  simp [State.entries, outlets]

section

variable {s t : State} (same : SameBlocks s t)

include same

theorem SameBlocks.dial : t.dial = s.dial := by simp [State.dial, same.active]

theorem GeometryLaw.congr (h : GeometryLaw s) : GeometryLaw t := by
  obtain ⟨active, valid, ring, loadPocket, noLot⟩ := h
  constructor <;> simp only [same.active, same.tracker, same.sup, State.lotOpen_congr same.sup, State.z, same.dial] <;>
    assumption

theorem SupervisorLaw.congr (h : SupervisorLaw s) : SupervisorLaw t := by
  have clearing : t.isClearing = s.isClearing := by simp [State.isClearing, same.sup]
  obtain ⟨first, ret, later, clear⟩ := h
  constructor <;> simp only [same.sup, clearing] <;> assumption

theorem NameLaw.congr (h : NameLaw s) : NameLaw t := by
  obtain ⟨records, entries, issued, entryIssued, entryRecord, firingEntry⟩ := h
  constructor <;> simp only [same.tracker, State.entries_congr same.outlets] <;> assumption

theorem RecordLaw.congr (h : RecordLaw s) : RecordLaw t := by
  have isSweep : t.isSweep = s.isSweep := by
    funext n
    simp [State.isSweep, State.outletEntry_of_active same.active]
  have complete : t.settleComplete = s.settleComplete := same.account.settleComplete
  obtain ⟨names, uncounted, counted, slot, claim, apart, atCheck, retired, noLot, summary⟩ := h
  refine { names.congr same with
    uncounted := ?_, counted := ?_, slot := ?_, claim := ?_, apart := ?_, atCheck := ?_, retired := ?_, noLot := ?_,
    summary := ?_ } <;>
    simp only [same.tracker, same.outlets, same.sup, State.lotOpen_congr same.sup, State.outletEntry_of_active same.active,
      State.firesFor, isSweep, State.z, same.dial, State.stage, complete] <;>
    assumption

theorem Lawful.congr (h : Lawful s) : Lawful t where
  geometry := h.geometry.congr same
  supervisor := h.supervisor.congr same
  records := h.records.congr same
  account := ledger_zero_iff.mp ((ledger_zero_iff.mpr h.account).congr same.account)

end

namespace Lawful

variable {s : State}

theorem accounts (h : Lawful s) : Accounts 0 s where
  toLedger := ledger_zero_iff.mpr h.account
  flagged := State.flagged_iff.mpr fun r hr =>
    ⟨h.records.uncounted r (List.mem_append_left _ hr), h.records.counted r hr⟩
  names := by
    have records := h.records.records
    rw [Tracker.records, List.map_append] at records
    exact records.of_append_left

theorem settled (h : Lawful s) : Settled s := ⟨h.accounts, h.records.summary⟩

theorem hasSweep (h : Lawful s) (lot : s.lotOpen = true) : s.hasSweep :=
  h.geometry.hasSweep fun unconfigured => by simp [State.lotOpen, unconfigured] at lot

/-- Without a lot there is no record, no entry and no reservation. -/
theorem idle (h : Lawful s) (noLot : s.lotOpen = false) :
    s.tracker.ring = [] ∧ ∀ n : Fin 16, s.outlets[n].reserved = 0 ∧ s.outlets[n].queue = [] :=
  ⟨(h.geometry.noLot noLot).1, fun n => ⟨(h.records.noLot noLot n).2.1, (h.records.noLot noLot n).1⟩⟩

theorem hasEntries (h : Lawful s) {r : PocketRecord} (hr : r ∈ s.tracker.ring) (firing : r.phase = .firing) :
    s.hasEntries r := by
  have inRecords : r ∈ s.tracker.records := List.mem_append_left _ hr
  exact ⟨h.records.firingEntry r inRecords firing, fun e he named =>
    (h.records.entryRecord e he r inRecords named.symm).2.symm⟩

theorem mayFire (h : Lawful s) {n : Fin 16} {name : RecordName} (slot : s.outlets[n].slot.name = some name) :
    s.mayFire n name := by
  intro k r offset at_k
  obtain ⟨r', at_k', named⟩ := ringOffset_some offset
  obtain rfl := Option.some.inj (at_k.symm.trans at_k')
  exact ((h.records.slot n name slot).2 k r at_k named).1

/-! ### The dial -/

theorem cancelCheck (h : Lawful s) : Accounts 0 (cancelCheck s) :=
  h.accounts.cancelCheck fun _ at_z firing => h.hasEntries (List.mem_of_getElem? at_z) firing

theorem issued (h : Lawful s) {name : RecordName} (named : name ∈ (Machine.cancelCheck s).ringNames) :
    (Machine.cancelCheck s).tracker.hasIssued name := by
  have names := SameNames.cancelCheck s
  rw [names.ring] at named
  obtain ⟨r, inRing, rfl⟩ := List.mem_map.mp named
  exact (hasIssued_congr names _).mpr (h.records.issued r (List.mem_append_left _ inRing))

theorem cancelCheck_length (h : Lawful s) (lot : s.lotOpen = true) :
    (Machine.cancelCheck s).tracker.ring.length = (Machine.cancelCheck s).z + 1 := by
  have names := congrArg List.length (SameNames.cancelCheck s).ring
  rw [State.ringNames, State.ringNames, List.length_map, List.length_map] at names
  rw [names, State.z_congr (cancelCheck_tables s), h.geometry.ring lot]

/-- R11, R99: when an index begins, the record leaving Z stands only as RETAINED. -/
theorem cancelCheck_leaves (h : Lawful s) {r : PocketRecord}
    (at_z : (Machine.cancelCheck s).tracker.ring[(Machine.cancelCheck s).z]? = some r) :
    r.phase = .retained ∨ r.phase.stands = false := by
  rw [State.z_congr (cancelCheck_tables s)] at at_z
  unfold Machine.cancelCheck at at_z
  split at at_z
  · unfold handleUnchecked at at_z
    split at at_z
    · next before at_z' =>
      split at at_z
      · next clear =>
        obtain rfl := Option.some.inj (at_z'.symm.trans at_z)
        right
        cases phase : before.phase <;> simp_all [Phase.clearUnchecked, Phase.stands]
      · have sameZ : (stopCheckTimer s).z = s.z := State.z_congr rfl
        rw [raiseFault_tracker, modRing_get, if_pos sameZ] at at_z
        obtain ⟨_, _, rfl⟩ := Option.map_eq_some_iff.mp at_z
        exact .inl rfl
    · next none => exact absurd (none.symm.trans at_z) (by simp)
  · next stopped =>
    obtain ⟨notHeld, notDecided, notStranded, _⟩ := h.records.atCheck stopped r at_z
    cases phase : r.phase <;> simp_all [Phase.stands]

theorem startCheckTimer_account (s : State) : SameAccount s (startCheckTimer s) :=
  ⟨rfl, rfl, rfl, rfl, fun _ => .refl _⟩

theorem stopCheckTimer_account (s : State) : SameAccount s (stopCheckTimer s) :=
  ⟨rfl, rfl, rfl, rfl, fun _ => .refl _⟩

theorem compareHome_tables (home : Bool) (s : State) : (compareHome home s).tables = s.tables := by
  have released (u : State) := (Accounts.releases u.tracker.ring u).2.2.2
  unfold compareHome homeMismatch
  split
  · rfl
  · simp only [setRing_tables]
    exact (released _).trans (raiseFault_tables ..)

theorem forwardParts (h : Lawful s) (home : Bool) (lot : s.lotOpen = true) : Accounts 0 (forwardParts home s) := by
  have moved := h.cancelCheck.moveUp (h.cancelCheck_length lot) (fun _ => h.cancelCheck_leaves) fun _ => h.issued
  have sweep : (compareHome home (moveUp (Machine.cancelCheck s))).hasSweep := (h.hasSweep lot).congr (by
    rw [compareHome_tables, moveUp_tables, cancelCheck_tables])
  exact ((moved.compareHome home).deadlines sweep).passes.arrivals.congr (startCheckTimer_account _)

theorem reverseParts (h : Lawful s) (lot : s.lotOpen = true) : Accounts 0 (reverseParts s) := by
  have names := SameNames.cancelCheck s
  unfold Machine.reverseParts
  dsimp only
  split
  · next r rest ring =>
    refine Accounts.congr ((endSlots_account _).trans ?_)
      (h.cancelCheck.moveDown ring (fun top onStack => ?_) ?_ fun _ => h.issued)
    · unfold raiseGap
      split
      · exact (raiseNotice_same _ _ _).account
      · exact .refl _
    · rw [names.stack] at onStack
      have inRecords : top ∈ s.tracker.records := List.mem_append_right _ onStack
      have idle := (h.records.retired top onStack).1
      refine ⟨.of_phase idle, h.records.uncounted top inRecords, fun phase => ?_⟩
      rcases phase with phase | phase <;> simp [phase, Phase.stands] at idle
    · have ringNames : (rest.map PocketRecord.name).Sublist s.ringNames := by
        rw [← names.ring, State.ringNames, ring]
        exact List.sublist_cons_self _ _
      have records := h.records.records
      rw [Tracker.records, List.map_append] at records
      rw [names.stack, List.map_append]
      exact records.sublist (ringNames.append (.refl _))
  · next empty =>
    have length := h.cancelCheck_length lot
    simp [empty] at length

theorem takeSample (h : Lawful s) (check : Bool) : Accounts 0 (takeSample check (stopCheckTimer s)) :=
  (h.accounts.congr (stopCheckTimer_account s)).takeSample check
    fun _ at_z firing => h.hasEntries (List.mem_of_getElem? at_z) firing

/-! ### The outlets -/

theorem pulseEnd (h : Lawful s) (n : Fin 16) :
    Accounts 0 (retestDue n (modOutlet n (fun o => { o with drive := .quiet }) s)) := by
  refine (h.accounts.congr (setDrive_account s n .quiet)).retestDue fun name slot => ?_
  rw [modOutlet_outlet, if_pos rfl] at slot
  exact h.mayFire (n := n) (congrArg Slot.name slot)

theorem recordFire_get (n : Fin 16) (k j : Nat) (r : PocketRecord) (s : State) :
    (recordFire n k r s).tracker.ring[j]? = if k = j then
      (s.tracker.ring[j]?).map fun r' => { r' with phase := .firing, target := some (r.fireRoute n) }
    else s.tracker.ring[j]? := modRing_get ..

/-- R75: the claimed record, which is DECIDED for the outlet, fires; a DUE slot names another record. -/
theorem answerStrobe (h : Lawful s) {n : Fin 16} {expires : Nat} {claim : Option RecordName}
    (drive : s.outlets[n].drive = .strobe expires claim) : Accounts 0 (retestDue n (answerStrobe n claim s)) := by
  have quiet := h.accounts.congr (setDrive_account s n .quiet)
  have left := h.pulseEnd n
  unfold Machine.answerStrobe
  dsimp only
  split
  · next name =>
    split
    · next k offset =>
      split
      · next r at_k =>
        split
        · have claimed : s.outlets[n].drive.claim = some name := by rw [drive]; rfl
          obtain ⟨_, at_k', named⟩ := ringOffset_some offset
          obtain rfl := Option.some.inj (at_k.symm.trans at_k')
          have decided := (h.records.claim n name claimed).2 _ (List.mem_of_getElem? at_k) named
          refine (quiet.recordFire at_k (.inl decided)).retestDue fun other slot j r' offset' at_j => ?_
          have slot' : s.outlets[n].slot = .due other := by
            simpa [recordFire, modOutlet_get] using slot
          have apart : other ≠ name := fun e =>
            h.records.apart n other (by rw [slot']; rfl) (e ▸ claimed)
          obtain ⟨r'', at_j', named'⟩ := ringOffset_some offset'
          obtain rfl := Option.some.inj (at_j.symm.trans at_j')
          have elsewhere : k ≠ j := by
            rintro rfl
            rw [recordFire_get, if_pos rfl, at_k] at at_j
            obtain rfl := Option.some.inj at_j
            exact apart (named'.symm.trans named)
          rw [recordFire_get, if_neg elsewhere] at at_j
          exact ((h.records.slot n other (by rw [slot']; rfl)).2 j r' at_j named').1
        · exact left
      · exact left
    · exact left
  · exact left

theorem ackLimit (h : Lawful s) (n : Fin 16) (claim : Option RecordName) :
    Accounts 0 (retestDue n (faultOutlet n (strandClaim claim (modOutlet n (fun o => { o with drive := .quiet }) s)))) := by
  rw [retestDue_skip n _ fun name due => Slot.noConfusion ((faultOutlet_slot n _).symm.trans due)]
  exact ((h.accounts.congr (setDrive_account s n .quiet)).strandClaim claim).faultOutlet n

/-- A FIRING record of the ring stood in it before a miss. -/
theorem mem_of_accountMiss {n : Fin 16} {r : PocketRecord} (hr : r ∈ (accountMiss n s).tracker.ring)
    (firing : r.phase = .firing) : r ∈ s.tracker.ring := by
  have stranded (t : State) (hr : r ∈ (strandSlot n t).tracker.ring) : r ∈ t.tracker.ring := by
    rcases strandSlot_cases n t with ⟨_, e⟩ | ⟨_, _, e | ⟨k, _, _, _, _, e⟩⟩
    · rwa [e] at hr
    · rwa [e] at hr
    · rw [e] at hr
      obtain ⟨j, at_j⟩ := List.getElem?_of_mem hr
      rw [modRing_get, release_tracker, modOutlet_tracker] at at_j
      split at at_j
      · obtain ⟨_, _, rfl⟩ := Option.map_eq_some_iff.mp at_j
        simp [PocketRecord.strand] at firing
      · exact List.mem_of_getElem? at_j
  unfold accountMiss faultOutlet at hr
  dsimp only at hr
  split at hr
  · split at hr
    · simpa using stranded _ hr
    · simpa using stranded _ hr
  · exact hr

theorem missHead (h : Lawful s) {n : Fin 16} {e : Entry} {rest : List Entry} (queue : s.outlets[n].queue = e :: rest) :
    Accounts 0 (missHead n e rest s) := by
  have inQueue : e ∈ s.entries := Accounts.mem_entries (n := n) (by rw [queue]; exact List.mem_cons_self)
  have missed : Accounts (0 + e.counted.toNat) (accountMiss n (modOutlet n (fun o => { o with queue := rest }) s)) := by
    refine h.accounts.accountMiss (by rw [queue]; rfl) ?_
    rw [Outlet.countedEntries, queue]
    cases counted : e.counted <;> simp [counted]
  rw [Int.zero_add] at missed
  refine missed.missFate fun r hr named firing => ?_
  have inRecords : r ∈ s.tracker.records := List.mem_append_left _
    (mem_of_accountMiss (s := modOutlet n (fun o => { o with queue := rest }) s) hr firing)
  exact (h.records.entryRecord e inQueue r inRecords named).2

/-! ### Tables and lots -/

/-- R67: an activation without a lot changes no reservation, entry or total. -/
theorem activate (h : Lawful s) (noLot : s.lotOpen = false) : Settled (activate s) := by
  obtain ⟨ring, outlets⟩ := h.idle noLot
  have kept (n : Fin 16) : (Machine.activate s).outlets[n].reserved = s.outlets[n].reserved
      ∧ (Machine.activate s).outlets[n].queue = s.outlets[n].queue
      ∧ (Machine.activate s).outlets[n].lotTotal = s.outlets[n].lotTotal := by
    have recommit (o : Outlet) (old new : Option OutletEntry) : (o.recommit old new).reserved = o.reserved
        ∧ (o.recommit old new).queue = o.queue ∧ (o.recommit old new).lotTotal = o.lotTotal := by
      unfold Outlet.recommit
      split <;> exact ⟨rfl, rfl, rfl⟩
    simp only [Machine.activate, judgeHold_outlets, Fin.getElem_fin, mapOutlets_get]
    exact recommit _ _ _
  have queues (n : Fin 16) : (Machine.activate s).outlets[n].queue = [] := (kept n).2.1.trans (outlets n).2
  have ringAfter : (Machine.activate s).tracker.ring = [] := by rw [activate_tracker, ring]
  refine ⟨.of_empty ringAfter (fun n => ⟨(kept n).1.trans (outlets n).1, queues n⟩) ?_, fun _ => ?_⟩
  · refine h.accounts.balance.of_ring rfl rfl (fun n => (kept n).2.2) ?_
    have entries := State.sumOutlets_congr (s := s) (t := Machine.activate s) fun n =>
      Outlet.countedEntries_congr (kept n).2.1
    rw [entries, State.standingCount, State.standingCount, activate_tracker]
  · exact State.settleComplete_iff.mpr ⟨queues, by rw [ringAfter]; simp⟩

/-- R128: a lot opens with VOID records, no part and no entry. -/
theorem openLot (h : Lawful s) (lotId loadPocket : Nat) (ready : s.sup.engine = .ready) :
    Settled (openLot lotId loadPocket s) := by
  obtain ⟨_, outlets⟩ := h.idle (by simp [State.lotOpen, ready])
  have kept (n : Fin 16) : (Machine.openLot lotId loadPocket s).outlets[n] = { s.outlets[n] with lotTotal := 0 } := by
    simp [Machine.openLot]
  have void : ∀ r ∈ (Machine.openLot lotId loadPocket s).tracker.ring, ∃ ident, r = .fresh none ident .void := by
    intro r hr
    obtain ⟨k, _, rfl⟩ := List.mem_map.mp (show r ∈ voidRing s.tracker.nextIdent (s.z + 1) from hr)
    exact ⟨_, rfl⟩
  have none (p : PocketRecord → Bool) (hp : ∀ ident, p (.fresh none ident .void) = false) :
      ((Machine.openLot lotId loadPocket s).tracker.ring.filter p).length = 0 := by
    rw [List.length_eq_zero_iff, List.filter_eq_nil_iff]
    intro r hr
    obtain ⟨ident, rfl⟩ := void r hr
    simp [hp]
  refine ⟨{ reserved := fun n => ?_, capacity := fun n _ _ _ => ?_, balance := fun _ => ?_, flagged := ?_, names := ?_ },
    fun summary => by simp [Machine.openLot, State.stage] at summary⟩
  · rw [kept, (outlets n).1, State.decidedCount, none _ fun ident => rfl, (outlets n).2]
    rfl
  · rw [kept]
    exact .inl (outlets n).1
  · have totals := State.sumOutlets_eq_zero (count := Outlet.lotTotal) fun n => by rw [kept]
    have entries := State.sumOutlets_eq_zero (count := Outlet.countedEntries) fun n => by
      rw [kept, Outlet.countedEntries, (outlets n).2]; rfl
    rw [State.accounted_eq, totals, entries, State.standingCount, none _ fun _ => rfl]
    rfl
  · refine State.flagged_iff.mpr fun r hr => ?_
    obtain ⟨ident, rfl⟩ := void r hr
    exact ⟨fun _ => rfl, by simp [PocketRecord.fresh]⟩
  · have ring : (Machine.openLot lotId loadPocket s).ringNames
        = (List.range (s.z + 1)).map fun k => RecordName.unnumbered (s.tracker.nextIdent + k) := by
      simp only [State.ringNames, Machine.openLot, Tracker.lotStart, voidRing, List.map_map]
      rfl
    rw [ring]
    exact List.nodup_range.map fun a b same => by simpa using same

theorem beginClearance (h : Lawful s) (stage : Stage) (kind : RunKind) : Accounts 0 (beginClearance stage kind s) :=
  h.accounts.congr (s := s) ⟨rfl, rfl, rfl, rfl, fun _ => .refl _⟩

theorem resume (h : Lawful s) : Settled (leaveHalted s) :=
  h.settled.congr (s := s) ⟨rfl, rfl, rfl, rfl, fun _ => .refl _⟩ rfl

/-- R63: an emptied bin has more room. -/
theorem emptyBin (h : Lawful s) (n : Fin 16) : Settled (emptyBin n s) := by
  have ledger : Ledger 0 (Machine.emptyBin n s) :=
    h.accounts.toLedger.modOutlet rfl (by dsimp only; omega) fun free => ⟨free, rfl⟩
  refine ⟨⟨ledger, h.accounts.flagged.congr rfl, h.accounts.names⟩, fun summary => ?_⟩
  rw [State.settleComplete_congr (s := s) (t := Machine.emptyBin n s) rfl fun m => ?_]
  · exact h.records.summary summary
  · rw [Machine.emptyBin, modOutlet_outlet]
    split <;> rfl

/-- Every event of a lawful state keeps the accounts. -/
theorem events : EventsKeep Lawful (Accounts 0) Settled where
  congr_P same h := h.congr same
  congr_R same h := h.congr same.account
  congr_Q same h := h.of_sameBlocks same
  weaken h := h.settled
  relax h := h.toAccounts
  stages h := .advanceClearance h
  close h := h.summaryStep
  count by_ h := h.congr (countIndex_account _ by_)
  fault code pocket seq h := h.raiseFault code pocket seq
  discarded reason h := h.congr (discard_account _ reason) rfl
  coreReset _ := .coreReset _
  fullReset cause held rate address := .fullReset cause held rate address _
  forward home lot h := h.forwardParts home lot
  reverse lot h := h.reverseParts lot
  sample check _ h := h.takeSample check
  delay _ _ _ slot h := h.accounts.fireTests (h.mayFire (congrArg Slot.name slot))
  pulse n _ _ h := h.pulseEnd n
  ack _ _ _ drive h := h.answerStrobe drive
  ackLimit n _ claim _ h := h.ackLimit n claim
  drop n cfg _ h := h.accounts.takeDrop n cfg
  miss _ _ _ queue h := h.missHead queue
  meas f h := h.accounts.takeMeas f h.hasSweep
  activate noLot h := h.activate noLot
  openLot lotId loadPocket ready h := h.openLot lotId loadPocket ready
  runOut _ h := h.beginClearance _ _
  abandon _ h := (h.beginClearance _ _).abandonRunOut
  abort _ h := h.accounts.abort
  resume _ h := h.resume
  emptyBin n h := h.emptyBin n

end Lawful

/-- Settles O9: every event moves each reservation with its record and each part with its place, so the laws and the balance
that hold before a step hold after it. -/
theorem accountLawIsKept : Obligations.AccountLawIsKept := fun _ _ geometry supervisor records account run =>
  ledger_zero_iff.mp (Lawful.events.step ⟨geometry, supervisor, records, account⟩ run).toLedger

end Sys2Proof.Machine

/-! Two requests of the Dispatcher: TABLE_COMMIT (R67, R119 to R122) and OUTLET_RESET (R63). -/

namespace Sys2Proof.Machine

section

variable {s : State} {f : InFrame} {rest : List InFrame}

/-! ### Bytes of a payload -/

theorem field_singleton (b : Byte) : field [b] 0 1 = b.toNat := by simp [field, slice, natOf]

theorem bytesOf_length : ∀ n v : Nat, (bytesOf n v).length = n
  | 0, _ => rfl
  | n + 1, v => by simp [bytesOf, bytesOf_length n v]

theorem bytesOf_two_field {payload : List Byte} (two : payload.length = 2) : bytesOf 2 (field payload 0 2) = payload := by
  obtain ⟨a, b, rfl⟩ := List.length_eq_two.mp two
  have ha := a.isLt
  have hb := b.isLt
  have high : BitVec.ofNat 8 ((256 * a.toNat + b.toNat) / 256) = a := by
    apply BitVec.eq_of_toNat_eq
    rw [BitVec.toNat_ofNat]
    omega
  have low : BitVec.ofNat 8 (256 * a.toNat + b.toNat) = b := by
    apply BitVec.eq_of_toNat_eq
    rw [BitVec.toNat_ofNat]
    omega
  simp [bytesOf, field, slice, natOf, high, low]

theorem field_bytesOf_two {v : Nat} (small : v < 65536) : field (bytesOf 2 v) 0 2 = v := by
  simp only [bytesOf, field, slice, natOf, List.drop_zero, List.take, List.foldl, BitVec.toNat_ofNat]
  omega

/-- The 2 bytes of a payload spell a 16-bit check when the number they give is the check. -/
theorem payload_eq_check_iff {payload : List Byte} (two : payload.length = 2) (check : Crc) :
    payload = bytesOf 2 check.toNat ↔ field payload 0 2 = check.toNat := by
  constructor
  · rintro rfl
    exact field_bytesOf_two check.isLt
  · intro same
    rw [← same, bytesOf_two_field two]

/-! ### The reply to a served request -/

theorem kind_of_outletReset {kind : Byte} (h : RequestKind.ofByte kind = some .outletReset) : kind = 0x33 := by
  unfold RequestKind.ofByte at h
  split at h
  case h_12 code => exact BitVec.eq_of_toNat_eq code
  all_goals nomatch h

theorem kind_of_tableCommit {kind : Byte} (h : RequestKind.ofByte kind = some .tableCommit) : kind = 0x23 := by
  unfold RequestKind.ofByte at h
  split at h
  case h_8 code => exact BitVec.eq_of_toNat_eq code
  all_goals nomatch h

theorem reply_eq_answer {kind : Byte} (h : f.kind = kind) (result : ResultCode) (bytes : List Byte) (s : State) :
    reply f result bytes s = answer f kind result bytes s := by
  rw [reply, h]
  rfl

/-- A row whose head frame can be served takes the frame and its effect, and ends on the line (R169). -/
theorem serveRow_of_serves {kind : RequestKind} (h : Serves s kind f rest) (effect : InFrame → State → State) :
    serveRow kind effect s = .next (finishLine (effect f (setInbound rest s))) := by
  simp [serveRow, whenRunning, serve, serveHead, h.running, h.head, h.isKind, h.ready]

theorem exec_outletReset (h : Serves s .outletReset f rest) :
    exec .outletReset s = .next (finishLine (serveOutletReset f (setInbound rest s))) :=
  serveRow_of_serves h serveOutletReset

theorem exec_tableCommit (h : Serves s .tableCommit f rest) :
    exec .tableCommit s = .next (finishLine (serveTableCommit f (setInbound rest s))) :=
  serveRow_of_serves h serveTableCommit

/-! ### OUTLET_RESET -/

theorem serveOutletReset_badIndex {b : Byte} (payload : f.payload = [b]) (above : 15 < b.toNat) (s : State) :
    serveOutletReset f s = reply f .badIndex [] s := by
  simp [serveOutletReset, payload, field_singleton, above]

/-- R63: the request names an outlet. -/
theorem serveOutletReset_outlet {b : Byte} {n : Fin 16} (payload : f.payload = [b]) (names : b.toNat = n.val) (s : State) :
    serveOutletReset f s = if s.outlets[n].state = .disabled then reply f .refusedState [] s
      else reply f .done (b :: bytesOf 2 s.outlets[n].committed) (emptyBin n s) := by
  have inside : ¬ 15 < n.val := by omega
  have outlet : Fin.ofNat 16 n.val = n := Fin.ofNat_val_eq_self n
  simp only [serveOutletReset, payload, field_singleton, names, inside, outlet, List.length_singleton, ne_eq, not_true,
    if_false, List.singleton_append]

end

/-- Settles O51: the tests of R63 in their order, each with its answer. -/
theorem outletResetEmptiesBin : Obligations.OutletResetEmptiesBin := by
  intro s f rest b serves payload
  have answered := reply_eq_answer (kind_of_outletReset serves.isKind)
  have outlets : (setInbound rest s).outlets = s.outlets := by simp
  refine ⟨fun n names enabled => ?_, fun n names disabled => ?_, fun above => ?_⟩
  · rw [exec_outletReset serves, serveOutletReset_outlet payload names, outlets, if_neg enabled, answered, emptyBin, modOutlet,
      outlets]
  · rw [exec_outletReset serves, serveOutletReset_outlet payload names, outlets, if_pos disabled, answered]
  · rw [exec_outletReset serves, serveOutletReset_badIndex payload above, answered]

section

variable {s : State} {f : InFrame} {rest : List InFrame}

/-! ### TABLE_COMMIT -/

theorem serveTableCommit_refused (two : f.payload.length = 2) (lot : s.lotOpen = true) :
    serveTableCommit f s = reply f .refusedState [] s := by
  simp [serveTableCommit, two, lot]

/-- Outside a lot a request of 2 bytes is the commit that its check names (R119). -/
theorem serveTableCommit_commit (two : f.payload.length = 2) (noLot : s.lotOpen = false) :
    serveTableCommit f s = commit f (field f.payload 0 2) s := by
  simp [serveTableCommit, two, noLot]

theorem commit_of_ne {expected : Nat} (differs : expected ≠ s.tables.check.toNat) :
    commit f expected s = reply f .checkMismatch (bytesOf 2 s.tables.check.toNat) (discardStaging s) :=
  if_pos differs

theorem commit_of_invalid {code : Nat} {index : Option Nat} (invalid : s.tables.staged.invalid = some (code, index)) :
    commit f s.tables.check.toNat s
      = reply f .tableInvalid (bytesOf 1 code ++ bytesOf 1 (index.getD 0xFF)) s := by
  simp [commit, invalid]

theorem commit_of_valid (valid : s.tables.staged.invalid = none) :
    commit f s.tables.check.toNat s = reply f .done (bytesOf 2 s.tables.check.toNat) (activate s) := by
  simp [commit, valid]

/-- R122: outside a lot the activation leaves the engine in READY. -/
theorem EngineState.afterCommit_of_noLot (noLot : s.lotOpen = false) : s.sup.engine.afterCommit = .ready := by
  unfold State.lotOpen at noLot
  cases engine : s.sup.engine <;> simp_all [EngineState.afterCommit]

/-! #### The activation, field by field -/

theorem activate_tables (s : State) :
    (activate s).tables = { active := some s.tables.staged.withLink, staged := s.tables.staged.withLink, check := 0xFFFF } := by
  simp [activate, Config.crcStart]

theorem activate_sup (s : State) : (activate s).sup = { s.sup with engine := s.sup.engine.afterCommit } := by
  simp [activate]

theorem activate_outlet (s : State) (n : Fin 16) :
    (activate s).outlets[n] = s.outlets[n].recommit (s.outletEntry n) (s.tables.staged.withLink.outlet n) := by
  simp [activate]

end

/-- R119, R122: a commit whose check agrees activates a valid staging. -/
theorem exec_tableCommit_of_valid {s : State} {f : InFrame} {rest : List InFrame} (serves : Serves s .tableCommit f rest)
    (noLot : s.lotOpen = false) (payload : f.payload = bytesOf 2 s.tables.check.toNat) (valid : s.tables.staged.invalid = none) :
    exec .tableCommit s
      = .next (finishLine (answer f 0x23 .done (bytesOf 2 s.tables.check.toNat) (activate (setInbound rest s)))) := by
  have tables : (setInbound rest s).tables = s.tables := by simp
  have lotOpen : (setInbound rest s).lotOpen = s.lotOpen := State.lotOpen_congr (by simp)
  have two : f.payload.length = 2 := by rw [payload, bytesOf_length]
  have expected : field f.payload 0 2 = (setInbound rest s).tables.check.toNat := by
    rw [tables, ← payload_eq_check_iff two, payload]
  rw [exec_tableCommit serves, serveTableCommit_commit two (lotOpen.trans noLot), expected, commit_of_valid (tables ▸ valid),
    reply_eq_answer (kind_of_tableCommit serves.isKind), tables]

/-- Settles O47: an agreeing check and a valid staging activate it, row by row of R67; each other case is one refusal. -/
theorem tableCommitActivatesOrRefuses : Obligations.TableCommitActivatesOrRefuses := by
  refine ⟨fun s f rest serves noLot payload valid => ?_, fun s f rest serves two => ?_⟩
  · have outlet (n : Fin 16) : (activate (setInbound rest s)).outlets[n]
        = s.outlets[n].recommit (s.outletEntry n) (s.tables.staged.withLink.outlet n) := by
      rw [activate_outlet, State.outletEntry_congr (setInbound_tables rest s), setInbound_tables, setInbound_outlets]
    have newTables := activate_tables (setInbound rest s)
    have newSup := activate_sup (setInbound rest s)
    have newTracker := activate_tracker (setInbound rest s)
    have newLtx := activate_ltx (setInbound rest s)
    rw [setInbound_tables] at newTables
    rw [setInbound_sup, EngineState.afterCommit_of_noLot noLot] at newSup
    rw [setInbound_tracker] at newTracker
    rw [setInbound_ltx] at newLtx
    refine ⟨_, exec_tableCommit_of_valid serves noLot payload valid, s.tables.staged.withLink, rfl, ?_⟩
    generalize activate (setInbound rest s) = t at *
    refine ⟨newTables, newSup, newTracker, fun n e0 e old new => ?_, fun n e old new => ?_, fun n e0 old new => ?_,
      fun n old new => ?_, ?_⟩
    · exact (outlet n).trans (by rw [old, new]; rfl)
    · exact (outlet n).trans (by rw [old, new]; rfl)
    · exact (outlet n).trans (by rw [old, new]; rfl)
    · exact (outlet n).trans (by rw [old, new]; rfl)
    · simp only [answer, newLtx, payload]
  · have answered := reply_eq_answer (kind_of_tableCommit serves.isKind)
    have tables : (setInbound rest s).tables = s.tables := by simp
    have lotOpen : (setInbound rest s).lotOpen = s.lotOpen := State.lotOpen_congr (by simp)
    have check := payload_eq_check_iff two s.tables.check
    refine ⟨fun lot => ?_, fun noLot differs => ?_, fun code index noLot payload invalid => ?_⟩
    · rw [exec_tableCommit serves, serveTableCommit_refused two (lotOpen.trans lot), answered]
    · have unexpected : field f.payload 0 2 ≠ (setInbound rest s).tables.check.toNat := by rwa [tables, ne_eq, ← check]
      rw [exec_tableCommit serves, serveTableCommit_commit two (lotOpen.trans noLot), commit_of_ne unexpected, answered,
        discardStaging, setStaging, tables]
      rfl
    · have expected : field f.payload 0 2 = (setInbound rest s).tables.check.toNat := by rwa [tables, ← check]
      rw [exec_tableCommit serves, serveTableCommit_commit two (lotOpen.trans noLot), expected,
        commit_of_invalid (tables ▸ invalid), answered]

end Sys2Proof.Machine

/-! Routing (R55, R56, R58): `routeFrom` walks along the candidates of R56. -/

namespace Sys2Proof.Machine

section

variable {s : State} {offset : Nat}

theorem State.usable_iff (s : State) (offset : Nat) (n : Fin 16) : s.usable offset n = true ↔ ∃ e, s.outletEntry n = some e ∧
    (e.sweep = true ∨ (s.outlets[n].state = .open ∧ s.outlets[n].committed + s.outlets[n].reserved < e.capacity
      ∧ offset < e.offset)) := by
  unfold State.usable
  cases s.outletEntry n with
  | none => simp
  | some e => simp [and_assoc]

/-- The candidates after the first are those that start at its overflow outlet. -/
theorem State.candidate_tail (s : State) (n : Fin 16) : ∀ i : Nat,
    s.candidate n (i + 1) = ((s.outletEntry n).bind OutletEntry.overflow).bind fun next => s.candidate next i
  | 0 => by simp [State.candidate]
  | i + 1 => by
    rw [State.candidate, State.candidate_tail s n i, Option.bind_assoc]
    rfl

theorem State.routeFrom_of_usable {n : Fin 16} (usable : s.usable offset n = true) (left hops : Nat) :
    s.routeFrom offset left hops n = { outlet := n, hops := hops } := by
  unfold State.routeFrom
  exact if_pos usable

/-- With hops left, an unusable candidate hands the search to the outlet after it. -/
theorem State.routeFrom_of_unusable {n next : Fin 16} (unusable : s.usable offset n = false)
    (link : (s.outletEntry n).bind OutletEntry.overflow = some next) (left hops : Nat) :
    s.routeFrom offset (left + 1) hops n = s.routeFrom offset left (hops + 1) next := by
  simp [State.routeFrom_succ, unusable, link]

/-- The search takes the first usable candidate, and counts the links to it. -/
theorem State.routeFrom_first_usable {c : Fin 16} (usable : s.usable offset c = true) : ∀ (i left hops : Nat) (n : Fin 16),
    i ≤ left → s.candidate n i = some c →
    (∀ j c', j < i → s.candidate n j = some c' → s.usable offset c' = false) →
    s.routeFrom offset left hops n = { outlet := c, hops := hops + i }
  | 0, left, hops, n, _, at_i, _ => by
    obtain rfl : n = c := Option.some.inj at_i
    exact State.routeFrom_of_usable usable left hops
  | i + 1, left + 1, hops, n, within, at_i, earlier => by
    rw [State.candidate_tail] at at_i
    obtain ⟨next, link, at_next⟩ := Option.bind_eq_some_iff.mp at_i
    have later (j : Nat) (c' : Fin 16) (before : j < i) (at_j : s.candidate next j = some c') : s.usable offset c' = false :=
      earlier (j + 1) c' (by omega) (by rw [State.candidate_tail, link, Option.bind_some, at_j])
    calc s.routeFrom offset (left + 1) hops n
        _ = s.routeFrom offset left (hops + 1) next := State.routeFrom_of_unusable (earlier 0 n (by omega) rfl) link left hops
        _ = { outlet := c, hops := hops + 1 + i } :=
          State.routeFrom_first_usable usable i left (hops + 1) next (by omega) at_next later
        _ = { outlet := c, hops := hops + (i + 1) } := by rw [Nat.add_assoc, Nat.add_comm 1 i]

/-- The search that meets no usable candidate falls back to the sweep outlet. -/
theorem State.routeFrom_none_usable : ∀ (left hops : Nat) (n : Fin 16),
    (∀ i c, i ≤ left → s.candidate n i = some c → s.usable offset c = false) →
    s.routeFrom offset left hops n = { outlet := s.sweepOutlet, hops := 5 }
  | 0, _, n, unusable => by simp [State.routeFrom, unusable 0 n (by omega) rfl, Config.sweepHops]
  | left + 1, hops, n, unusable => by
    have here : s.usable offset n = false := unusable 0 n (by omega) rfl
    cases link : (s.outletEntry n).bind OutletEntry.overflow with
    | none => simp [State.routeFrom_succ, here, link, Config.sweepHops]
    | some next =>
      rw [State.routeFrom_of_unusable here link]
      exact State.routeFrom_none_usable left (hops + 1) next fun i c within at_i =>
        unusable (i + 1) c (by omega) (by rw [State.candidate_tail, link, Option.bind_some, at_i])

end

/-- Settles O36: by induction along the candidates, with the hops that are left. -/
theorem routingTakesFirstUsableCandidate : Obligations.RoutingTakesFirstUsableCandidate := by
  intro s first offset
  refine ⟨s.usable_iff offset, fun i c within at_i usable earlier => ?_, State.routeFrom_none_usable _ _ first⟩
  calc s.route first offset
      _ = { outlet := c, hops := 0 + i } := State.routeFrom_first_usable usable i _ 0 first within at_i earlier
      _ = { outlet := c, hops := i } := by rw [Nat.zero_add]

end Sys2Proof.Machine

/-! A fire delay that expires without a fire (R71), and a drop without an eligible entry (R65, R83). -/

namespace Sys2Proof.Machine

section

variable {s : State}

/-! ### Expiry of a fire delay -/

/-- R71: in SORTING and CLEARING the expiry puts the slot's record to the tests. -/
theorem exec_fireDelayExpiry {n : Fin 16} {name : RecordName} {expires : Nat} (running : s.held = false)
    (fires : s.firesAllowed = true) (slot : s.outlets[n].slot = .delay name expires) :
    exec (.fireDelayExpiry n) s = .next (finishEvent (fireTests n name (advanceTo expires s))) := by
  calc exec (.fireDelayExpiry n) s = .next (whenRunning (onFireDelayExpiry n) s) := rfl
    _ = .next (finishEvent (fireTests n name (advanceTo expires s))) := by
      simp only [whenRunning, running, Bool.false_eq_true, if_false, onFireDelayExpiry, slot, fires, if_true]

theorem fireTests_backlog {n : Fin 16} (full : 4 ≤ s.outlets[n].queue.length) (name : RecordName) :
    fireTests n name s = backlog n name s :=
  if_pos full

theorem fireTests_due {n : Fin 16} (room : s.outlets[n].queue.length < 4) (busy : s.outlets[n].drive ≠ .quiet)
    (name : RecordName) : fireTests n name s = modOutlet n (fun o => { o with slot := .due name }) s := by
  have notFull : ¬ Config.queueLimit ≤ s.outlets[n].queue.length := Nat.not_le.mpr room
  rw [fireTests, if_neg notFull, if_neg busy]

theorem Phase.fireable_of_slot {p : Phase} (phase : p = .decided ∨ p = .stranded ∨ p = .void) : p.fireable = true := by
  rcases phase with rfl | rfl | rfl <;> rfl

/-- R71 test 1, for a record that a slot may name. -/
theorem backlog_of_fireable {name : RecordName} {k : Nat} {r : PocketRecord} (n : Fin 16) (offset : s.ringOffset name = some k)
    (at_k : s.tracker.ring[k]? = some r) (fireable : r.phase.fireable = true) :
    backlog n name s = modRing k (.strand .backlog) (releaseIfDecided r (modOutlet n (fun o => { o with slot := .free }) s)) := by
  have offset' : (modOutlet n (fun o => { o with slot := .free }) s).ringOffset name = some k := offset
  have at_k' : (modOutlet n (fun o => { o with slot := .free }) s).tracker.ring[k]? = some r := at_k
  simp only [backlog, offset', at_k', fireable, if_true]

/-- A change of a record that stands at an offset writes the changed record there. -/
theorem modRing_tracker_of_some {k : Nat} {r : PocketRecord} (at_k : s.tracker.ring[k]? = some r)
    (f : PocketRecord → PocketRecord) : (modRing k f s).tracker = { s.tracker with ring := s.tracker.ring.set k (f r) } := by
  obtain ⟨inRing, rfl⟩ := List.getElem?_eq_some_iff.mp at_k
  simp [modRing, setRing, List.modify_eq_set_getElem?, inRing]

/-- Releasing a record does not give an outlet a slot. -/
theorem Outlet.released_slot_free {o : Outlet} (free : o.slot = .free) (r : PocketRecord) (n : Fin 16) :
    (o.released r n).slot = .free := by
  unfold Outlet.released
  split
  · simp only [Outlet.forget, free, ite_self]
  · exact free

theorem endSlot_outlet (n m : Fin 16) (s : State) : (modOutlet n (fun o => { o with slot := .free }) s).outlets[m]
    = { s.outlets[m] with slot := if m = n then .free else s.outlets[m].slot } := by
  rw [modOutlet_outlet]
  by_cases same : n = m
  · simp [same]
  · simp [same, Ne.symm same]

section

variable {n : Fin 16} {name : RecordName} {k : Nat} {r : PocketRecord}

theorem backlog_tracker (offset : s.ringOffset name = some k) (at_k : s.tracker.ring[k]? = some r)
    (fireable : r.phase.fireable = true) :
    (backlog n name s).tracker = { s.tracker with ring := s.tracker.ring.set k (r.strand .backlog) } := by
  have released : (releaseIfDecided r (modOutlet n (fun o => { o with slot := .free }) s)).tracker = s.tracker := by simp
  rw [backlog_of_fireable n offset at_k fireable, modRing_tracker_of_some (released.symm ▸ at_k), released]

theorem backlog_outlet (offset : s.ringOffset name = some k) (at_k : s.tracker.ring[k]? = some r)
    (fireable : r.phase.fireable = true) (m : Fin 16) : (backlog n name s).outlets[m]
      = Outlet.released { s.outlets[m] with slot := if m = n then .free else s.outlets[m].slot } r m := by
  rw [backlog_of_fireable n offset at_k fireable, modRing_outlets, releaseIfDecided_outlet, endSlot_outlet]

end

end

/-- Settles O28: the first two tests of R71, a busy drive and a full confirmation queue. -/
theorem fireDelayBacklogAndDue : Obligations.FireDelayBacklogAndDue := by
  intro n s name expires running fires slot
  rw [exec_fireDelayExpiry running fires slot]
  refine ⟨fun room busy => ?_, fun k r full offset at_k phase => ?_⟩
  · rw [fireTests_due (s := advanceTo expires s) room busy]
    rfl
  · have fireable := Phase.fireable_of_slot phase
    have outlet (m : Fin 16) : (backlog n name (advanceTo expires s)).outlets[m]
        = Outlet.released { s.outlets[m] with slot := if m = n then .free else s.outlets[m].slot } r m :=
      backlog_outlet (s := advanceTo expires s) offset at_k fireable m
    refine ⟨_, rfl, ?_⟩
    rw [fireTests_backlog (s := advanceTo expires s) full]
    refine ⟨backlog_tracker (s := advanceTo expires s) offset at_k fireable, ?_, outlet, by simp, by simp [advanceTo]⟩
    rw [outlet n]
    exact Outlet.released_slot_free (if_pos rfl) r n

section

variable {s : State}

/-! ### A drop -/

theorem exec_drop (running : s.held = false) (time : Nat) (n : Fin 16) :
    exec (.drop time n) s = .next (inLot (onDrop n) (advanceTo time s)) := by
  calc exec (.drop time n) s = .next (whenRunning (fun s => inLot (onDrop n) (advanceTo time s)) s) := rfl
    _ = .next (inLot (onDrop n) (advanceTo time s)) := by
      simp only [whenRunning, running, Bool.false_eq_true, if_false]

/-- R83: a drop on an enabled outlet while a lot is open is attributed. -/
theorem exec_drop_of_enabled {n : Fin 16} {cfg : OutletEntry} (running : s.held = false) (lot : s.lotOpen = true)
    (enabled : s.outlets[n].state ≠ .disabled) (entry : s.outletEntry n = some cfg) (time : Nat) :
    exec (.drop time n) s = .next (finishEvent (takeDrop n cfg (advanceTo time s))) := by
  have lot' : (advanceTo time s).lotOpen = true := lot
  have entry' : (advanceTo time s).outletEntry n = some cfg := entry
  rw [exec_drop running, inLot, if_pos lot', onDrop, if_neg (by simpa using enabled), entry']

theorem takeDrop_stray {n : Fin 16} {cfg : OutletEntry}
    (early : ∀ e rest, s.outlets[n].queue = e :: rest → s.now - e.fireTime < cfg.flightMin) :
    takeDrop n cfg s = strayDrop n s := by
  unfold takeDrop
  split
  · next e rest queue => exact if_pos (early e rest queue)
  · rfl

theorem takeDrop_confirm {n : Fin 16} {cfg : OutletEntry} {e : Entry} {rest : List Entry}
    (queue : s.outlets[n].queue = e :: rest) (inWindow : cfg.flightMin ≤ s.now - e.fireTime) :
    takeDrop n cfg s = confirmHead n cfg e rest s := by
  simp only [takeDrop, queue, Nat.not_lt.mpr inWindow, if_false]

end

/-- Settles O33: the drops that are ignored, and the one that finds no entry in its window. -/
theorem dropWithoutEntryIsStray : Obligations.DropWithoutEntryIsStray := by
  intro time n s running
  refine ⟨fun ignored => ?_, fun cfg lot enabled entry early => ?_⟩
  · rw [exec_drop running, inLot]
    rcases ignored with noLot | disabled
    · have noLot' : (advanceTo time s).lotOpen = false := noLot
      rw [noLot']
      rfl
    · have disabled' : (advanceTo time s).outlets[n].state = .disabled := disabled
      rw [onDrop, if_pos disabled', ite_self]
      rfl
  · rw [exec_drop_of_enabled running lot enabled entry, takeDrop_stray (s := advanceTo time s) early]
    rfl

end Sys2Proof.Machine

/-! A drop that confirms the head entry (R60, R61, R84, R95). -/

namespace Sys2Proof.Machine

section

variable {s t : State}

/-! ### A fault while an outlet confirms -/

/-- A fault may end the slots; nothing else of an outlet changes (R78, R135). -/
theorem raiseFault_outlet (code : FaultCode) (pocket : Nat) (seq : Option Nat) (s : State) (m : Fin 16) :
    (raiseFault code pocket seq s).outlets[m]
      = { s.outlets[m] with slot := (raiseFault code pocket seq s).outlets[m].slot } := by
  unfold raiseFault
  cases s.sup.engine <;> simp [enterHalted, endSlots]

/-- What a fault makes of the Supervisor's record does not depend on its count of recovered parts. -/
theorem raiseFault_sup_of_recovered {recovered : Nat} (sup : t.sup = { s.sup with recovered := recovered }) (code : FaultCode)
    (pocket : Nat) (seq : Option Nat) :
    (raiseFault code pocket seq t).sup = { (raiseFault code pocket seq s).sup with recovered := recovered } := by
  unfold raiseFault
  rw [sup]
  cases s.sup.engine <;> simp [enterHalted, sup]

/-- A fault raises HALTED at most. -/
theorem raiseFault_notice (code : FaultCode) (pocket : Nat) (seq : Option Nat) (s : State) {i : Fin 11}
    (other : i ≠ Condition.halted.index) : (raiseFault code pocket seq s).notices[i] = s.notices[i] := by
  have apart : (Condition.halted.index : Nat) ≠ i.val := fun same => other (Fin.ext same.symm)
  unfold raiseFault
  cases s.sup.engine <;> simp [enterHalted, raiseNotice_get, apart]

section

variable (n : Fin 16) (e : Entry) (cfg : OutletEntry) (before : Nat)

theorem raiseFull_outlet (s : State) (m : Fin 16) :
    (raiseFull n e cfg before s).outlets[m] = { s.outlets[m] with slot := (raiseFull n e cfg before s).outlets[m].slot } := by
  unfold raiseFull
  dsimp only
  have noticed : (if before + 1 = cfg.capacity then raiseNotice .outletFull n.val s else s).outlets = s.outlets := by
    split <;> simp
  rw [← noticed]
  split
  · exact raiseFault_outlet _ _ _ _ m
  · rfl

/-- R95: SWEEP_FULL is raised on a sweep outlet that is at its capacity or above after the confirmation. -/
theorem raiseFull_sup {recovered : Nat} (sup : t.sup = { s.sup with recovered := recovered }) (tracker : t.tracker = s.tracker) :
    (raiseFull n e cfg before t).sup = { (if cfg.sweep = true ∧ cfg.capacity ≤ min (before + 1) Config.committedMax then
      raiseFault .sweepFull s.faultPocket e.name.seq s else s).sup with recovered := recovered } := by
  unfold raiseFull
  dsimp only
  have noticed : (if before + 1 = cfg.capacity then raiseNotice .outletFull n.val t else t).sup
      = { s.sup with recovered := recovered } := by
    split <;> simp [sup]
  have pocket : (if before + 1 = cfg.capacity then raiseNotice .outletFull n.val t else t).faultPocket = s.faultPocket := by
    split <;> simp [State.faultPocket, tracker]
  rw [pocket]
  by_cases above : cfg.sweep = true ∧ cfg.capacity ≤ min (before + 1) Config.committedMax
  · rw [if_pos above, if_pos above]
    exact raiseFault_sup_of_recovered noticed _ _ _
  · rw [if_neg above, if_neg above]
    exact noticed

/-- R61: OUTLET_FULL is raised as committed + 1 meets the capacity. -/
theorem raiseFull_outletFull (s : State) : (raiseFull n e cfg before s).notices[(2 : Fin 11)]
    = if before + 1 = cfg.capacity then s.notices[(2 : Fin 11)].raised n.val else s.notices[(2 : Fin 11)] := by
  have noticed : (if before + 1 = cfg.capacity then raiseNotice .outletFull n.val s else s).notices[(2 : Fin 11)]
      = if before + 1 = cfg.capacity then s.notices[(2 : Fin 11)].raised n.val else s.notices[(2 : Fin 11)] := by
    split
    · exact raiseNotice_get .outletFull n.val s 2 (by omega)
    · rfl
  rw [← noticed]
  unfold raiseFull
  dsimp only
  split
  · exact raiseFault_notice _ _ _ _ (by decide)
  · rfl

/-! ### The record and the report of a confirmed entry -/

theorem State.pocketOf_congr (tables : t.tables = s.tables) (tracker : t.tracker = s.tracker) (p : Place) :
    t.pocketOf p = s.pocketOf p := by
  cases p <;> simp [State.pocketOf, State.z_congr tables, State.pocketAt_congr tables (congrArg Tracker.loadPocket tracker)]

theorem confirmRecord_found {p : Place} (sweep : Bool) (place : s.firingPlace e.name = some p) :
    (confirmRecord n e sweep s).tracker = (modPlace p (.settle .gone) s).tracker := by
  simp only [confirmRecord, place]
  rfl

theorem confirmRecord_missing (sweep : Bool) (place : s.firingPlace e.name = none) :
    (confirmRecord n e sweep s).tracker = s.tracker := by
  simp only [confirmRecord, place]
  rfl

/-- R84: the report offered for a confirmed entry, with the pocket of its record where that still stands. -/
theorem confirmRecord_ltx (sweep : Bool) (s : State) : (confirmRecord n e sweep s).ltx
    = s.ltx.offer (e.report n (confirmOutcome e sweep) (((s.firingPlace e.name).map s.pocketOf).getD e.pocket)
        (some (s.now - e.fireTime))) := by
  cases place : s.firingPlace e.name with
  | none => simp [confirmRecord, place, offerReport]
  | some p => cases p <;> simp [confirmRecord, place, offerReport, modPlace]

end

/-! ### The confirmation, block by block -/

/-- The state in which the record of a confirmed entry is taken and its report offered. -/
def confirmCounts (n : Fin 16) (cfg : OutletEntry) (e : Entry) (rest : List Entry) (s : State) : State :=
  raiseFull n e cfg s.outlets[n].committed
    (countRecovered e.counted (modOutlet n (fun o => o.confirm e.counted cfg.capacity rest) s))

variable (n : Fin 16) (cfg : OutletEntry) (e : Entry) (rest : List Entry) (s : State)

theorem confirmHead_eq : confirmHead n cfg e rest s = confirmRecord n e cfg.sweep (confirmCounts n cfg e rest s) := rfl

theorem confirmCounts_tracker : (confirmCounts n cfg e rest s).tracker = s.tracker := by simp [confirmCounts]

theorem confirmCounts_tables : (confirmCounts n cfg e rest s).tables = s.tables := by simp [confirmCounts]

theorem confirmCounts_ltx : (confirmCounts n cfg e rest s).ltx = s.ltx := by simp [confirmCounts]

theorem confirmCounts_now : (confirmCounts n cfg e rest s).now = s.now := by simp [confirmCounts]

theorem confirmCounts_place : (confirmCounts n cfg e rest s).firingPlace e.name = s.firingPlace e.name :=
  State.firingPlace_congr (confirmCounts_tracker n cfg e rest s) e.name

/-- R60, R61: the confirming outlet and the others. -/
theorem confirmHead_outlet (m : Fin 16) : (confirmHead n cfg e rest s).outlets[m]
    = { (if m = n then s.outlets[m].confirm e.counted cfg.capacity rest else s.outlets[m]) with
        slot := (confirmHead n cfg e rest s).outlets[m].slot } := by
  have counted : (countRecovered e.counted (modOutlet n (fun o => o.confirm e.counted cfg.capacity rest) s)).outlets[m]
      = if m = n then s.outlets[m].confirm e.counted cfg.capacity rest else s.outlets[m] := by
    rw [countRecovered_outlets, modOutlet_outlet]
    simp only [eq_comm]
  rw [confirmHead_eq, confirmRecord_outlets, ← counted]
  exact raiseFull_outlet n e cfg _ _ m

/-- The fault that a confirmation may raise reads the Supervisor's record and the tracker, and no time. -/
theorem confirmHead_sup {base : State} (sup : s.sup = base.sup) (tracker : s.tracker = base.tracker) :
    (confirmHead n cfg e rest s).sup
      = { (if cfg.sweep = true ∧ cfg.capacity ≤ min (s.outlets[n].committed + 1) Config.committedMax then
            raiseFault .sweepFull base.faultPocket e.name.seq base else base).sup with
          recovered := if e.counted then base.sup.recovered else countUp base.sup.recovered } := by
  rw [confirmHead_eq, confirmRecord_sup, confirmCounts]
  exact raiseFull_sup n e cfg _ (by rw [← sup]; rfl) tracker

theorem confirmHead_outletFull : (confirmHead n cfg e rest s).notices[(2 : Fin 11)]
    = if s.outlets[n].committed + 1 = cfg.capacity then s.notices[(2 : Fin 11)].raised n.val
      else s.notices[(2 : Fin 11)] := by
  rw [confirmHead_eq, confirmRecord_notices, confirmCounts, raiseFull_outletFull]
  rfl

theorem confirmHead_found {p : Place} (place : s.firingPlace e.name = some p) :
    (confirmHead n cfg e rest s).tracker = (modPlace p (.settle .gone) s).tracker := by
  have tracker := confirmCounts_tracker n cfg e rest s
  rw [confirmHead_eq, confirmRecord_found n e cfg.sweep ((confirmCounts_place n cfg e rest s).trans place)]
  cases p with
  | ring k => simp only [modPlace, modRing, setRing, tracker]
  | stack d => simp only [modPlace, modStack, tracker]

theorem confirmHead_missing (place : s.firingPlace e.name = none) : (confirmHead n cfg e rest s).tracker = s.tracker := by
  rw [confirmHead_eq, confirmRecord_missing n e cfg.sweep ((confirmCounts_place n cfg e rest s).trans place),
    confirmCounts_tracker]

theorem confirmHead_ltx : (confirmHead n cfg e rest s).ltx
    = s.ltx.offer (e.report n (confirmOutcome e cfg.sweep) (((s.firingPlace e.name).map s.pocketOf).getD e.pocket)
        (some (s.now - e.fireTime))) := by
  have pocket : (confirmCounts n cfg e rest s).pocketOf = s.pocketOf :=
    funext (State.pocketOf_congr (confirmCounts_tables n cfg e rest s) (confirmCounts_tracker n cfg e rest s))
  rw [confirmHead_eq, confirmRecord_ltx, confirmCounts_place, pocket, confirmCounts_ltx, confirmCounts_now]

end

/-- Settles O32: the confirmation is read off block by block. -/
theorem dropConfirmsHeadEntry : Obligations.DropConfirmsHeadEntry := by
  intro time n s cfg e rest running lot enabled entry queue inWindow
  have outlet := confirmHead_outlet n cfg e rest (advanceTo time s)
  have notice := confirmHead_outletFull n cfg e rest (advanceTo time s)
  have sup := confirmHead_sup n cfg e rest (advanceTo time s) (base := s) rfl rfl
  have ltx := confirmHead_ltx n cfg e rest (advanceTo time s)
  have found {p : Place} := confirmHead_found n cfg e rest (advanceTo time s) (p := p)
  have missing := confirmHead_missing n cfg e rest (advanceTo time s)
  refine ⟨confirmHead n cfg e rest (advanceTo time s), ?_, ?_⟩
  · rw [exec_drop_of_enabled running lot enabled entry, takeDrop_confirm (s := advanceTo time s) queue inWindow]
  generalize confirmHead n cfg e rest (advanceTo time s) = u at *
  have confirmed : u.outlets[n] = { s.outlets[n].confirm e.counted cfg.capacity rest with slot := u.outlets[n].slot } :=
    (outlet n).trans (by rw [if_pos rfl, advanceTo_outlets])
  refine ⟨congrArg Outlet.queue confirmed, congrArg Outlet.committed confirmed, congrArg Outlet.reserved confirmed,
    congrArg Outlet.missRun confirmed, congrArg Outlet.lotTotal confirmed, sup, fun reaches => ⟨?_, fun wasOpen => ?_⟩,
    fun below => ⟨?_, ?_⟩, fun m other => ?_, fun k place => found place, fun d place => found place, missing, ltx⟩
  · exact notice.trans (if_pos reaches)
  · exact (congrArg Outlet.state confirmed).trans (if_pos ⟨wasOpen, reaches⟩)
  · exact notice.trans (if_neg below)
  · exact (congrArg Outlet.state confirmed).trans (if_neg fun full => below full.2)
  · exact (outlet m).trans (by rw [if_neg other, advanceTo_outlets])

end Sys2Proof.Machine

/-! An ack limit that expires (R76, R81): the claim's record and the slot's record are stranded, one after the other. -/

namespace Sys2Proof.Machine

section

variable {s t : State} {claim : Option RecordName} {k : Nat} {r : PocketRecord}

/-! ### The record that a slot or claim holds -/

/-- A slot or claim that names this record, DECIDED, at this ring offset. -/
structure Holds (s : State) (claim : Option RecordName) (k : Nat) (r : PocketRecord) : Prop where
  offset : claim.bind s.ringOffset = some k
  record : s.tracker.ring[k]? = some r
  decided : r.phase = .decided

theorem not_holds_none : ¬ Holds s none k r := fun h => nomatch h.offset

theorem Holds.congr (h : Holds s claim k r) (tracker : t.tracker = s.tracker) : Holds t claim k r := by
  have offsets : t.ringOffset = s.ringOffset := funext (State.ringOffset_congr tracker)
  exact ⟨by rw [offsets, h.offset], by rw [tracker, h.record], h.decided⟩

theorem Holds.name (h : Holds s claim k r) : claim = some r.name := by
  obtain ⟨name, rfl, offset⟩ := Option.bind_eq_some_iff.mp h.offset
  obtain ⟨r', at_k, same⟩ := ringOffset_some offset
  obtain rfl : r = r' := Option.some.inj (h.record.symm.trans at_k)
  rw [same]

theorem Holds.namedDecided (h : Holds s claim k r) : s.namedDecided claim = [r] := by
  simp [State.namedDecided, State.namedRecord, h.offset, h.record, h.decided]

theorem namedDecided_eq_nil (none : ∀ k r, ¬ Holds s claim k r) : s.namedDecided claim = [] := by
  rw [State.namedDecided, Option.toList_eq_nil_iff, Option.filter_eq_none_iff]
  intro r named decided
  obtain ⟨k, offset, record⟩ := Option.bind_eq_some_iff.mp named
  exact none k r ⟨offset, record, by simpa using decided⟩

/-- The reservation of a slot or claim is that of the DECIDED record it names. -/
theorem heldFor_eq (s : State) (claim : Option RecordName) (m : Fin 16) :
    s.heldFor claim m = if (s.namedDecided claim).any (fun r => r.decidedFor m) then 1 else 0 := by
  unfold State.heldFor State.namedDecided
  cases s.namedRecord claim with
  | none => rfl
  | some r =>
    by_cases decided : r.phase = .decided
    · simp [decided]
    · simp [decided, PocketRecord.decidedFor]

theorem State.ringOffset_of_names (names : t.ringNames = s.ringNames) (name : RecordName) :
    t.ringOffset name = s.ringOffset name := by
  have byNames (u : State) : u.ringOffset name = u.ringNames.findIdx? (· == name) := by
    rw [State.ringNames, List.findIdx?_map]
    rfl
  rw [byNames, byNames, names]

/-! ### Stranding it -/

theorem strandClaim_of_holds (h : Holds s claim k r) :
    strandClaim claim s = modRing k (.strand .outletFaulted) (release r s) := by
  obtain ⟨name, rfl, offset⟩ := Option.bind_eq_some_iff.mp h.offset
  simp only [strandClaim, offset, h.record, h.decided, if_true]

theorem strandClaim_of_not_holds (none : ∀ k r, ¬ Holds s claim k r) : strandClaim claim s = s := by
  rcases strandClaim_cases claim s with idle | ⟨name, k, r, rfl, offset, record, decided, _⟩
  · exact idle
  · exact absurd ⟨offset, record, decided⟩ (none k r)

/-- Either the claim holds a record, or it holds none. -/
theorem holds_or (s : State) (claim : Option RecordName) : (∃ k r, Holds s claim k r) ∨ ∀ k r, ¬ Holds s claim k r := by
  by_cases held : ∃ k r, Holds s claim k r
  · exact .inl held
  · exact .inr fun k r h => held ⟨k, r, h⟩

/-- A strand releases the records it takes, in every outlet. -/
theorem strandClaim_outlet (claim : Option RecordName) (s : State) (m : Fin 16) : (strandClaim claim s).outlets[m]
    = { s.outlets[m].forgetAll (s.namedDecided claim) with reserved := s.outlets[m].reserved - s.heldFor claim m } := by
  rw [heldFor_eq]
  rcases holds_or s claim with ⟨k, r, h⟩ | none
  · have released : (release r s).outlets[m] = s.outlets[m].released r m := by
      rw [← releaseIfDecided_outlet, releaseIfDecided, if_pos h.decided]
    rw [strandClaim_of_holds h, h.namedDecided, modRing_outlets, released, Outlet.released, if_pos h.decided]
    by_cases target : r.target.map Route.outlet = some m
    · simp [Outlet.forgetAll, Outlet.forget, PocketRecord.decidedFor, h.decided, target]
    · simp [Outlet.forgetAll, Outlet.forget, PocketRecord.decidedFor, target]
  · rw [strandClaim_of_not_holds none, namedDecided_eq_nil none]
    rfl

theorem strandClaim_tracker (claim : Option RecordName) (s : State) :
    (strandClaim claim s).tracker = { s.tracker with ring := (strandClaim claim s).tracker.ring } := by
  rcases holds_or s claim with ⟨k, r, h⟩ | none
  · rw [strandClaim_of_holds h]
    simp only [modRing, setRing, release_tracker]
  · rw [strandClaim_of_not_holds none]

theorem strandClaim_ring_held (h : Holds s claim k r) :
    (strandClaim claim s).tracker.ring[k]? = some (r.strand .outletFaulted) := by
  rw [strandClaim_of_holds h, modRing_get, if_pos rfl, release_tracker, h.record, Option.map_some]

theorem strandClaim_ring_other (other : ∀ r, ¬ Holds s claim k r) :
    (strandClaim claim s).tracker.ring[k]? = s.tracker.ring[k]? := by
  rcases holds_or s claim with ⟨j, r, h⟩ | none
  · have apart : j ≠ k := fun same => other r (same ▸ h)
    rw [strandClaim_of_holds h, modRing_get, if_neg apart, release_tracker]
  · rw [strandClaim_of_not_holds none]

theorem strandClaim_names (claim : Option RecordName) (s : State) : (strandClaim claim s).ringNames = s.ringNames := by
  rcases holds_or s claim with ⟨k, r, h⟩ | none
  · rw [strandClaim_of_holds h]
    exact (SameNames.trans (.of_tracker (release_tracker ..)) (.modRing k (.strand .outletFaulted) (fun _ => rfl) _)).ring
  · rw [strandClaim_of_not_holds none]

/-- A strand changes no record that another slot or claim holds, and gives none to hold. -/
theorem holds_after_strandClaim {other : Option RecordName} :
    Holds (strandClaim claim s) other k r ↔ other ≠ claim ∧ Holds s other k r := by
  have offsets : (strandClaim claim s).ringOffset = s.ringOffset :=
    funext (State.ringOffset_of_names (strandClaim_names claim s))
  constructor
  · intro h
    have offset : other.bind s.ringOffset = some k := offsets ▸ h.offset
    have untaken (r' : PocketRecord) : ¬ Holds s claim k r' := fun taken => by
      have stranded := Option.some.inj ((strandClaim_ring_held taken).symm.trans h.record)
      exact absurd h.decided (by simp [← stranded, PocketRecord.strand])
    have held : Holds s other k r := ⟨offset, (strandClaim_ring_other untaken) ▸ h.record, h.decided⟩
    exact ⟨fun same => untaken r (same ▸ held), held⟩
  · rintro ⟨differs, h⟩
    have untaken (r' : PocketRecord) : ¬ Holds s claim k r' := fun taken => by
      obtain rfl : r = r' := Option.some.inj (h.record.symm.trans taken.record)
      exact differs (h.name.trans taken.name.symm)
    exact ⟨by rw [offsets, h.offset], by rw [strandClaim_ring_other untaken, h.record], h.decided⟩

end

/-! ### Outlets that forget -/

section

variable (records more : List PocketRecord) (o : Outlet)

theorem Outlet.forgetAll_append : o.forgetAll (records ++ more) = (o.forgetAll records).forgetAll more :=
  List.foldl_append

theorem Outlet.forget_forget (name : RecordName) (o : Outlet) : (o.forget name).forget name = o.forget name := by
  have slot : (if (if o.slot.name = some name then .free else o.slot).name = some name then .free
      else if o.slot.name = some name then .free else o.slot : Slot) = if o.slot.name = some name then .free else o.slot := by
    by_cases named : o.slot.name = some name <;> simp [named]
  unfold Outlet.forget
  dsimp only
  rw [slot]
  cases o.drive with
  | quiet => rfl
  | pulse ends => rfl
  | strobe expires claim =>
    cases claim with
    | none => rfl
    | some claimed => by_cases same : claimed = name <;> simp [same]

theorem Outlet.forgetAll_of_quiet {o : Outlet} (quiet : o.drive = .quiet) :
    o.forgetAll records = { o with slot := (o.forgetAll records).slot } := by
  induction records generalizing o with
  | nil => rfl
  | cons r records ih =>
    have drive : (o.forget r.name).drive = .quiet := by simp only [Outlet.forget, quiet]
    calc o.forgetAll (r :: records)
        _ = { o.forget r.name with slot := ((o.forget r.name).forgetAll records).slot } := ih drive
        _ = { o with slot := (o.forgetAll (r :: records)).slot } := by
          simp only [Outlet.forget, quiet, Outlet.forgetAll, List.foldl_cons]

theorem Outlet.forgetAll_reserved (reserved : Nat) :
    { o with reserved := reserved }.forgetAll records = { o.forgetAll records with reserved := reserved } := by
  induction records generalizing o with
  | nil => rfl
  | cons r records ih => exact ih (o.forget r.name)

/-- An outlet without a slot and a strobe has nothing to forget. -/
theorem Outlet.forgetAll_of_idle {o : Outlet} (quiet : o.drive = .quiet) (free : o.slot = .free) :
    o.forgetAll records = o := by
  induction records with
  | nil => rfl
  | cons r records ih =>
    have idle : o.forget r.name = o := by
      obtain ⟨_, _, _, _, _, _, _, _⟩ := o
      obtain rfl := quiet
      obtain rfl := free
      rfl
    rw [Outlet.forgetAll, List.foldl_cons, idle]
    exact ih

end

/-! ### The fault of an outlet -/

section

variable {s t : State} {claim : Option RecordName} {k : Nat} {r : PocketRecord} {n : Fin 16}

/-- R64: the state and the notice of an outlet that enters FAULTED. -/
def enterFaulted (n : Fin 16) (s : State) : State :=
  if s.outlets[n].state = .faulted then s
  else raiseNotice .outletFault n.val (modOutlet n (fun o => { o with state := .faulted }) s)

theorem enterFaulted_outlet (n m : Fin 16) (s : State) : (enterFaulted n s).outlets[m]
    = { s.outlets[m] with state := if m = n then .faulted else s.outlets[m].state } := by
  unfold enterFaulted
  by_cases same : n = m
  · subst same
    split
    · next faulted => simp [← faulted]
    · simp
  · split
    · simp [Ne.symm same]
    · have kept : (modOutlet n (fun o => { o with state := .faulted }) s).outlets[m] = s.outlets[m] := by
        rw [modOutlet_outlet, if_neg same]
      rw [if_neg (Ne.symm same)]
      exact kept

theorem enterFaulted_tracker (n : Fin 16) (s : State) : (enterFaulted n s).tracker = s.tracker := by
  unfold enterFaulted
  split <;> simp

/-- The end of the slot is itself a strand of the record that the slot names. -/
theorem strandSlot_eq (n : Fin 16) (s : State) : strandSlot n s
    = strandClaim s.outlets[n].slot.name (modOutlet n (fun o => { o with slot := .free }) s) := by
  cases slot : s.outlets[n].slot.name with
  | none =>
    have free : { s.outlets[n] with slot := .free } = s.outlets[n] := by
      cases is : s.outlets[n].slot with
      | free => rw [← is]
      | delay name expires => rw [is] at slot; nomatch slot
      | due name => rw [is] at slot; nomatch slot
    have unchanged : modOutlet n (fun o => { o with slot := .free }) s = s := by
      rw [modOutlet, free]
      simp
    rw [unchanged, strandClaim]
    simp only [strandSlot, slot]
  | some name => simp only [strandSlot, slot, strandClaim]

theorem faultOutlet_eq (n : Fin 16) (s : State) : faultOutlet n s
    = strandClaim s.outlets[n].slot.name (modOutlet n (fun o => { o with slot := .free }) (enterFaulted n s)) := by
  have entered : faultOutlet n s = strandSlot n (enterFaulted n s) := by
    unfold faultOutlet enterFaulted
    split <;> rfl
  rw [entered, strandSlot_eq, enterFaulted_outlet]

theorem faulted_tracker (n : Fin 16) (s : State) :
    (modOutlet n (fun o => { o with slot := .free }) (enterFaulted n s)).tracker = s.tracker :=
  (modOutlet_tracker ..).trans (enterFaulted_tracker n s)

theorem State.namedDecided_congr (tracker : t.tracker = s.tracker) (claim : Option RecordName) :
    t.namedDecided claim = s.namedDecided claim := by
  have offsets : t.ringOffset = s.ringOffset := funext (State.ringOffset_congr tracker)
  simp only [State.namedDecided, State.namedRecord, offsets, tracker]

/-- R81: an outlet that faults loses its slot, and the slot's record is released. -/
theorem faultOutlet_releases (n m : Fin 16) (s : State) : (faultOutlet n s).outlets[m]
    = { Outlet.forgetAll (s.namedDecided s.outlets[n].slot.name)
          { s.outlets[m] with
            state := if m = n then .faulted else s.outlets[m].state
            slot := if m = n then .free else s.outlets[m].slot } with
        reserved := s.outlets[m].reserved - s.heldFor s.outlets[n].slot.name m } := by
  rw [faultOutlet_eq, strandClaim_outlet, endSlot_outlet, enterFaulted_outlet, heldFor_eq, heldFor_eq,
    State.namedDecided_congr (faulted_tracker n s)]

theorem faultOutlet_tracker (n : Fin 16) (s : State) :
    (faultOutlet n s).tracker = { s.tracker with ring := (faultOutlet n s).tracker.ring } := by
  rw [faultOutlet_eq, strandClaim_tracker, faulted_tracker]

theorem faultOutlet_ring_held (h : Holds s s.outlets[n].slot.name k r) :
    (faultOutlet n s).tracker.ring[k]? = some (r.strand .outletFaulted) := by
  rw [faultOutlet_eq]
  exact strandClaim_ring_held (h.congr (faulted_tracker n s))

theorem faultOutlet_ring_other (other : ∀ r, ¬ Holds s s.outlets[n].slot.name k r) :
    (faultOutlet n s).tracker.ring[k]? = s.tracker.ring[k]? := by
  rw [faultOutlet_eq, strandClaim_ring_other fun r h => other r (h.congr (faulted_tracker n s).symm), faulted_tracker]

/-- R64: OUTLET_FAULT is raised by the entry into FAULTED alone. -/
theorem faultOutlet_notices (n : Fin 16) (s : State) : (faultOutlet n s).notices
    = if s.outlets[n].state = .faulted then s.notices else (raiseNotice .outletFault n.val s).notices := by
  unfold faultOutlet
  split
  · simp
  · simp [raiseNotice]

end

/-! ### The claim first, then the slot -/

section

variable {s : State} {claim : Option RecordName} {k : Nat} {r : PocketRecord} {n : Fin 16}

/-- The strand of the claim ends the slot only where the slot names the same record. -/
theorem slot_after_strandClaim (claim : Option RecordName) (n : Fin 16) (s : State) :
    (strandClaim claim s).outlets[n].slot.name = s.outlets[n].slot.name ∨
      (strandClaim claim s).outlets[n].slot.name = none ∧ s.outlets[n].slot.name = claim := by
  rcases holds_or s claim with ⟨k, r, h⟩ | none
  · rw [strandClaim_outlet, h.namedDecided]
    by_cases named : s.outlets[n].slot.name = some r.name
    · right
      exact ⟨by simp only [Outlet.forgetAll, List.foldl, Outlet.forget, named, if_true]; rfl, named.trans h.name.symm⟩
    · left
      simp only [Outlet.forgetAll, List.foldl, Outlet.forget, named, if_false]
  · left
    rw [strandClaim_of_not_holds none]

/-- After the strand of the claim the slot holds the record that it held, unless that was the claim's. -/
theorem holds_slot_after_strandClaim :
    Holds (strandClaim claim s) (strandClaim claim s).outlets[n].slot.name k r
      ↔ s.outlets[n].slot.name ≠ claim ∧ Holds s s.outlets[n].slot.name k r := by
  rcases slot_after_strandClaim claim n s with kept | ⟨ended, same⟩
  · rw [kept, holds_after_strandClaim]
  · rw [ended]
    exact ⟨fun h => absurd h not_holds_none, fun h => absurd same h.1⟩

theorem namedDecided_slot_after_strandClaim (claim : Option RecordName) (n : Fin 16) (s : State) :
    (strandClaim claim s).namedDecided (strandClaim claim s).outlets[n].slot.name
      = if s.outlets[n].slot.name = claim then [] else s.namedDecided s.outlets[n].slot.name := by
  by_cases same : s.outlets[n].slot.name = claim
  · rw [if_pos same]
    exact namedDecided_eq_nil fun k r h => (holds_slot_after_strandClaim.mp h).1 same
  · rw [if_neg same]
    rcases holds_or s s.outlets[n].slot.name with ⟨k, r, h⟩ | none
    · rw [h.namedDecided, (holds_slot_after_strandClaim.mpr ⟨same, h⟩).namedDecided]
    · rw [namedDecided_eq_nil none, namedDecided_eq_nil fun k r h => none k r (holds_slot_after_strandClaim.mp h).2]

theorem heldFor_slot_after_strandClaim (claim : Option RecordName) (n m : Fin 16) (s : State) :
    (strandClaim claim s).heldFor (strandClaim claim s).outlets[n].slot.name m
      = if s.outlets[n].slot.name = claim then 0 else s.heldFor s.outlets[n].slot.name m := by
  rw [heldFor_eq, heldFor_eq, namedDecided_slot_after_strandClaim]
  split <;> rfl

/-- To forget the claim's record and then the slot's is to forget both, were they the same record or not. -/
theorem forgetAll_claim_slot (s : State) (claim slot : Option RecordName) (o : Outlet) :
    (o.forgetAll (s.namedDecided claim)).forgetAll (if slot = claim then [] else s.namedDecided slot)
      = o.forgetAll (s.namedDecided claim ++ s.namedDecided slot) := by
  rw [Outlet.forgetAll_append]
  split
  · next same =>
    rw [same]
    rcases holds_or s claim with ⟨k, r, h⟩ | none
    · rw [h.namedDecided]
      exact (Outlet.forget_forget r.name o).symm
    · rw [namedDecided_eq_nil none]
  · rfl

theorem ackFault_reserved (claim : Option RecordName) (n m : Fin 16) (s : State) :
    (faultOutlet n (strandClaim claim s)).outlets[m].reserved = s.outlets[m].reserved - s.heldFor claim m
      - (if s.outlets[n].slot.name = claim then 0 else s.heldFor s.outlets[n].slot.name m) := by
  rw [faultOutlet_releases, heldFor_slot_after_strandClaim, strandClaim_outlet claim s m]

theorem ackFault_other {m : Fin 16} (other : m ≠ n) (claim : Option RecordName) (s : State) :
    (faultOutlet n (strandClaim claim s)).outlets[m]
      = { s.outlets[m].forgetAll (s.namedDecided claim ++ s.namedDecided s.outlets[n].slot.name) with
          reserved := (faultOutlet n (strandClaim claim s)).outlets[m].reserved } := by
  have base : { (strandClaim claim s).outlets[m] with
        state := if m = n then .faulted else (strandClaim claim s).outlets[m].state
        slot := if m = n then .free else (strandClaim claim s).outlets[m].slot }
      = { s.outlets[m].forgetAll (s.namedDecided claim) with reserved := s.outlets[m].reserved - s.heldFor claim m } := by
    rw [if_neg other, if_neg other]
    exact strandClaim_outlet claim s m
  rw [faultOutlet_releases, namedDecided_slot_after_strandClaim, base, Outlet.forgetAll_reserved, forgetAll_claim_slot]

/-- The outlet whose strobe was not answered, its drive quiet already. -/
theorem ackFault_outlet (quiet : s.outlets[n].drive = .quiet) (claim : Option RecordName) :
    (faultOutlet n (strandClaim claim s)).outlets[n]
      = { s.outlets[n] with
          state := .faulted, slot := .free, reserved := (faultOutlet n (strandClaim claim s)).outlets[n].reserved } := by
  have base : { (strandClaim claim s).outlets[n] with
        state := if n = n then .faulted else (strandClaim claim s).outlets[n].state
        slot := if n = n then .free else (strandClaim claim s).outlets[n].slot }
      = { s.outlets[n] with state := .faulted, slot := .free, reserved := s.outlets[n].reserved - s.heldFor claim n } := by
    rw [if_pos rfl, if_pos rfl, strandClaim_outlet, Outlet.forgetAll_of_quiet _ quiet]
  have idle := Outlet.forgetAll_of_idle
    ((strandClaim claim s).namedDecided (strandClaim claim s).outlets[n].slot.name)
    (o := { s.outlets[n] with state := .faulted, slot := .free, reserved := s.outlets[n].reserved - s.heldFor claim n })
    quiet rfl
  rw [faultOutlet_releases, base, idle]

theorem ackFault_ring_held (h : Holds s claim k r ∨ Holds s s.outlets[n].slot.name k r) :
    (faultOutlet n (strandClaim claim s)).tracker.ring[k]? = some (r.strand .outletFaulted) := by
  by_cases byClaim : Holds s claim k r
  · have stranded := strandClaim_ring_held byClaim
    have other (r' : PocketRecord) : ¬ Holds (strandClaim claim s) (strandClaim claim s).outlets[n].slot.name k r' := fun h' => by
      obtain rfl := Option.some.inj (stranded.symm.trans h'.record)
      exact absurd h'.decided (by simp [PocketRecord.strand])
    rw [faultOutlet_ring_other other, stranded]
  · have bySlot := h.resolve_left byClaim
    have differs : s.outlets[n].slot.name ≠ claim := fun same => byClaim (same ▸ bySlot)
    exact faultOutlet_ring_held (holds_slot_after_strandClaim.mpr ⟨differs, bySlot⟩)

theorem ackFault_ring_other (other : ∀ r, ¬ Holds s claim k r ∧ ¬ Holds s s.outlets[n].slot.name k r) :
    (faultOutlet n (strandClaim claim s)).tracker.ring[k]? = s.tracker.ring[k]? := by
  rw [faultOutlet_ring_other fun r h => (other r).2 (holds_slot_after_strandClaim.mp h).2,
    strandClaim_ring_other fun r => (other r).1]

end

section

variable {s : State} {n : Fin 16} {expires : Nat} {claim : Option RecordName}

/-- The outlet's drive has gone to QUIET at its ack limit. -/
def ackLimitQuiet (n : Fin 16) (expires : Nat) (s : State) : State :=
  modOutlet n (fun o => { o with drive := .quiet }) (advanceTo expires s)

theorem ackLimitQuiet_outlet (n m : Fin 16) (expires : Nat) (s : State) : (ackLimitQuiet n expires s).outlets[m]
    = { s.outlets[m] with drive := if m = n then .quiet else s.outlets[m].drive } := by
  refine (modOutlet_outlet n m _ _).trans ?_
  by_cases same : n = m
  · rw [if_pos same, if_pos same.symm, advanceTo_outlets]
  · rw [if_neg same, if_neg (Ne.symm same), advanceTo_outlets]

/-- R76: after the fault the slot is free, so nothing is tested again. -/
theorem exec_ackLimitExpiry (running : s.held = false) (drive : s.outlets[n].drive = .strobe expires claim) :
    exec (.ackLimitExpiry n) s = .next (finishEvent (faultOutlet n (strandClaim claim (ackLimitQuiet n expires s)))) := by
  have settled : retestDue n (faultOutlet n (strandClaim claim (ackLimitQuiet n expires s)))
      = faultOutlet n (strandClaim claim (ackLimitQuiet n expires s)) :=
    retestDue_skip n _ fun name due => by
      have free := faultOutlet_slot n (strandClaim claim (ackLimitQuiet n expires s))
      exact nomatch free.symm.trans due
  calc exec (.ackLimitExpiry n) s = .next (whenRunning (onAckLimitExpiry n) s) := rfl
    _ = .next (finishEvent (retestDue n (faultOutlet n (strandClaim claim (ackLimitQuiet n expires s))))) := by
      simp only [whenRunning, running, Bool.false_eq_true, if_false, onAckLimitExpiry, drive, ackLimitQuiet]
    _ = .next (finishEvent (faultOutlet n (strandClaim claim (ackLimitQuiet n expires s)))) := by rw [settled]

end

/-- Settles O31: the claim's record is stranded, then the slot's as the outlet faults; each is released once, also where both
name one record. -/
theorem ackLimitFaultsOutlet : Obligations.AckLimitFaultsOutlet := by
  intro n s expires claim running drive
  refine ⟨_, exec_ackLimitExpiry running drive, ?_⟩
  have quiet (m : Fin 16) := ackLimitQuiet_outlet n m expires s
  have tracker : (ackLimitQuiet n expires s).tracker = s.tracker := by simp [ackLimitQuiet]
  have slot : (ackLimitQuiet n expires s).outlets[n].slot = s.outlets[n].slot := by rw [quiet n]
  have state : (strandClaim claim (ackLimitQuiet n expires s)).outlets[n].state = s.outlets[n].state :=
    (strandClaim_same claim _ n n.isLt).1.trans (by rw [← Fin.getElem_fin, quiet n])
  have named := State.namedDecided_congr tracker
  have held (c : Option RecordName) (m : Fin 16) : (ackLimitQuiet n expires s).heldFor c m = s.heldFor c m := by
    rw [heldFor_eq, heldFor_eq, named]
  have notices := faultOutlet_notices n (strandClaim claim (ackLimitQuiet n expires s))
  have noticesKept : (strandClaim claim (ackLimitQuiet n expires s)).notices = s.notices := by simp [ackLimitQuiet]
  rw [state] at notices
  refine ⟨?_, fun entered => ?_, fun again => ?_, fun name k r names offset at_k decided => ?_, fun k other => ?_, ?_, fun m => ?_,
    fun m other => ?_, ?_, ?_, ?_, ?_, ?_⟩
  · refine (ackFault_outlet ?_ claim).trans ?_
    · rw [quiet n]
      exact if_pos rfl
    · rw [quiet n, if_pos rfl]
  · rw [notices, if_neg entered, ← noticesKept]
    exact raiseNotice_get .outletFault n.val _ 3 (by omega)
  · rw [notices, if_pos again, noticesKept]
  · refine ackFault_ring_held ?_
    rw [slot]
    rcases names with byClaim | bySlot
    · exact .inl (Holds.congr ⟨byClaim ▸ offset, at_k, decided⟩ tracker)
    · exact .inr (Holds.congr ⟨bySlot ▸ offset, at_k, decided⟩ tracker)
  · have untaken {c : Option RecordName} (among : ∀ name, c = some name → claim = some name ∨ s.outlets[n].slot.name = some name)
        (r : PocketRecord) : ¬ Holds (ackLimitQuiet n expires s) c k r := fun h => by
      obtain ⟨offset, at_k, decided⟩ := h.congr (s := ackLimitQuiet n expires s) tracker.symm
      obtain ⟨name, names, offset⟩ := Option.bind_eq_some_iff.mp offset
      exact other name r (among name names) offset at_k decided
    rw [ackFault_ring_other fun r => ⟨untaken (fun _ => .inl) r, slot ▸ untaken (fun _ => .inr) r⟩, tracker]
  · rw [faultOutlet_tracker, strandClaim_tracker, tracker]
  · rw [ackFault_reserved, slot, held, held, quiet m]
  · rw [ackFault_other other, slot, named, named, quiet m, if_neg other]
  all_goals simp [ackLimitQuiet, advanceTo]

end Sys2Proof.Machine

/-! Fires that begin, and drives that return to QUIET (R71 to R75, R92). -/

namespace Sys2Proof.Machine

section

variable {s : State} {n : Fin 16} {name : RecordName} {k : Nat} {r : PocketRecord} {e : OutletEntry}

/-! ### The fire of a record -/

/-- Two changes of one outlet are one change. -/
theorem modOutlet_modOutlet (n : Fin 16) (f g : Outlet → Outlet) (s : State) :
    modOutlet n f (modOutlet n g s) = modOutlet n (fun o => f (g o)) s := by
  simp [modOutlet]

/-- The change of a record that stands at an offset, as the state it leaves. -/
theorem modRing_of_some (at_k : s.tracker.ring[k]? = some r) (f : PocketRecord → PocketRecord) :
    modRing k f s = { s with tracker := { s.tracker with ring := s.tracker.ring.set k (f r) } } := by
  rw [← modRing_tracker_of_some at_k]
  rfl

/-- R82: the outlet whose queue takes the entry of a fire. -/
theorem recordFire_of_some (n : Fin 16) (at_k : s.tracker.ring[k]? = some r) : recordFire n k r s
    = { modOutlet n (fun o =>
          { o with
            queue := o.queue ++ [r.entry (r.fireRoute n).hops s.now (s.pocketAt k)]
            reserved := if r.phase = .decided then o.reserved else o.reserved + 1 }) s with
        tracker := { s.tracker with
          ring := s.tracker.ring.set k { r with phase := .firing, target := some (r.fireRoute n) } } } :=
  modRing_of_some (s := modOutlet n _ s) at_k _

theorem PocketRecord.fireRoute_of_decided {route : Route} (decided : r.phase = .decided) (target : r.target = some route)
    (n : Fin 16) : r.fireRoute n = route := by
  rw [fireRoute, if_pos decided, target, Option.getD_some]

/-- R92: the sweep fire of a record that no outlet has reserved. -/
theorem PocketRecord.fireRoute_of_sweep (phase : r.phase = .stranded ∨ r.phase = .void) (n : Fin 16) :
    r.fireRoute n = { outlet := n, hops := 5 } := by
  have undecided : r.phase ≠ .decided := by rcases phase with phase | phase <;> simp [phase]
  exact if_neg undecided

/-! ### A fire begins (R72, R73, R75) -/

/-- R71: with room and a quiet drive the fire begins. -/
theorem fireTests_begin (room : s.outlets[n].queue.length < 4) (quiet : s.outlets[n].drive = .quiet) (name : RecordName) :
    fireTests n name s = beginFire n name s := by
  have notFull : ¬ Config.queueLimit ≤ s.outlets[n].queue.length := Nat.not_le.mpr room
  rw [fireTests, if_neg notFull, if_pos quiet]

theorem beginFire_pulse (entry : s.outletEntry n = some e) (mode : e.mode = .pulse) (offset : s.ringOffset name = some k)
    (at_k : s.tracker.ring[k]? = some r) (fireable : r.phase.fireable = true) : beginFire n name s
      = recordFire n k r (modOutlet n (fun o => { o with slot := .free, drive := .pulse (s.now + e.pulseWidth) }) s) := by
  have entry' : (modOutlet n (fun o => { o with slot := .free }) s).outletEntry n = some e := entry
  have offset' : (modOutlet n (fun o => { o with slot := .free }) s).ringOffset name = some k := offset
  simp only [beginFire, entry', offset', modOutlet_tracker, at_k, fireable, if_true, mode, modOutlet_modOutlet, modOutlet_now]

theorem beginFire_gated (entry : s.outletEntry n = some e) (mode : e.mode = .gated) (offset : s.ringOffset name = some k)
    (at_k : s.tracker.ring[k]? = some r) (fireable : r.phase.fireable = true) : beginFire n name s
      = modOutlet n (fun o => { o with slot := .free, drive := .strobe (s.now + e.ackLimit) (some name) }) s := by
  have entry' : (modOutlet n (fun o => { o with slot := .free }) s).outletEntry n = some e := entry
  have offset' : (modOutlet n (fun o => { o with slot := .free }) s).ringOffset name = some k := offset
  simp only [beginFire, entry', offset', modOutlet_tracker, at_k, fireable, if_true, mode, modOutlet_modOutlet, modOutlet_now]

end

/-- Settles O27: the tests of R71 find room and a quiet drive, and the drive mode of the outlet's entry decides. -/
theorem fireDelayBeginsFire : Obligations.FireDelayBeginsFire := by
  refine ⟨fun n s name expires k e r route running fires slot quiet room entry mode offset at_k target => ?_,
    fun n s name expires k e r running fires slot quiet room entry mode offset at_k decided => ?_⟩
  · have fireable : r.phase.fireable = true :=
      Phase.fireable_of_slot (target.imp And.left And.left)
    have fireRoute : r.fireRoute n = route := by
      rcases target with ⟨decided, target⟩ | ⟨phase, rfl⟩
      · exact PocketRecord.fireRoute_of_decided decided target n
      · exact PocketRecord.fireRoute_of_sweep phase n
    rw [exec_fireDelayExpiry running fires slot, fireTests_begin (s := advanceTo expires s) room quiet,
      beginFire_pulse (s := advanceTo expires s) entry mode offset at_k fireable,
      recordFire_of_some (s := modOutlet n _ (advanceTo expires s)) n at_k, fireRoute, modOutlet_modOutlet]
    rfl
  · rw [exec_fireDelayExpiry running fires slot, fireTests_begin (s := advanceTo expires s) room quiet,
      beginFire_gated (s := advanceTo expires s) entry mode offset at_k (Phase.fireable_of_slot (.inl decided))]
    rfl

section

variable {s : State} {n : Fin 16}

/-! ### A drive that returns to QUIET -/

/-- R71, R72: nothing is tested again without a DUE slot, or where no fire may begin. -/
theorem retestDue_idle (idle : (∀ name, s.outlets[n].slot ≠ .due name) ∨ s.firesAllowed = false) : retestDue n s = s := by
  rcases idle with notDue | halted
  · exact retestDue_skip n s notDue
  · unfold retestDue
    split <;> simp [halted]

theorem retestDue_due {name : RecordName} (due : s.outlets[n].slot = .due name) (fires : s.firesAllowed = true) :
    retestDue n s = fireTests n name s := by
  simp only [retestDue, due, fires, if_true]

/-- The retest after an event's effect `v` that leaves the slot, and the states in which fires may begin, as they were. -/
theorem retestDue_of_kept {v : State} (slot : v.outlets[n].slot = s.outlets[n].slot) (fires : v.firesAllowed = s.firesAllowed) :
    ((∀ name, s.outlets[n].slot ≠ .due name) ∨ s.firesAllowed = false → retestDue n v = v) ∧
    (∀ name, s.outlets[n].slot = .due name → s.firesAllowed = true → retestDue n v = fireTests n name v) := by
  refine ⟨fun idle => retestDue_idle ?_, fun name due allowed => retestDue_due (slot.trans due) (fires.trans allowed)⟩
  rwa [slot, fires]

theorem exec_pulseEnd {ends : Nat} (running : s.held = false) (drive : s.outlets[n].drive = .pulse ends) :
    exec (.pulseEnd n) s
      = .next (finishEvent (retestDue n (modOutlet n (fun o => { o with drive := .quiet }) (advanceTo ends s)))) := by
  calc exec (.pulseEnd n) s = .next (whenRunning (onPulseEnd n) s) := rfl
    _ = .next (finishEvent (retestDue n (modOutlet n (fun o => { o with drive := .quiet }) (advanceTo ends s)))) := by
      simp only [whenRunning, running, Bool.false_eq_true, if_false, onPulseEnd, drive]

end

/-- Settles O29: the drive is quiet before the DUE slot is tested. -/
theorem pulseEndQuietsDrive : Obligations.PulseEndQuietsDrive := by
  intro n s ends running drive
  have slot : (modOutlet n (fun o => { o with drive := .quiet }) (advanceTo ends s)).outlets[n].slot = s.outlets[n].slot := by
    rw [modOutlet_outlet, if_pos rfl, advanceTo_outlets]
  obtain ⟨idle, due⟩ := retestDue_of_kept slot rfl
  rw [exec_pulseEnd running drive]
  refine ⟨fun untested => ?_, fun name isDue fires => ?_⟩
  · rw [idle untested]
    rfl
  · rw [due name isDue fires]
    rfl

section

variable {s : State} {n : Fin 16} {time expires k : Nat} {name : RecordName} {r : PocketRecord}

/-! ### An ACK (R75) -/

theorem exec_ack {claim : Option RecordName} (running : s.held = false) (lot : s.lotOpen = true)
    (enabled : s.outlets[n].state ≠ .disabled) (drive : s.outlets[n].drive = .strobe expires claim) (time : Nat) :
    exec (.ack time n) s = .next (finishEvent (retestDue n (answerStrobe n claim (advanceTo time s)))) := by
  have lot' : (advanceTo time s).lotOpen = true := lot
  have enabled' : (advanceTo time s).outlets[n].state ≠ .disabled := enabled
  have drive' : (advanceTo time s).outlets[n].drive = .strobe expires claim := drive
  calc exec (.ack time n) s = .next (whenRunning (fun s => inLot (onAck n) (advanceTo time s)) s) := rfl
    _ = .next (finishEvent (retestDue n (answerStrobe n claim (advanceTo time s)))) := by
      simp only [whenRunning, running, Bool.false_eq_true, if_false, inLot, lot', if_true, onAck, enabled', drive']

theorem answerStrobe_withdrawn (n : Fin 16) (s : State) :
    answerStrobe n none s = modOutlet n (fun o => { o with drive := .quiet }) s := rfl

/-- R75: the claim stands, so the record fires. -/
theorem answerStrobe_standing (offset : s.ringOffset name = some k) (at_k : s.tracker.ring[k]? = some r)
    (decided : r.phase = .decided) (n : Fin 16) :
    answerStrobe n (some name) s = recordFire n k r (modOutlet n (fun o => { o with drive := .quiet }) s) := by
  have offset' : (modOutlet n (fun o => { o with drive := .quiet }) s).ringOffset name = some k := offset
  simp only [answerStrobe, offset', modOutlet_tracker, at_k, decided, if_true]

/-- R71, R75: the answer to a strobe leaves the slot, and a DUE slot is then tested again where fires may begin. -/
theorem exec_ack_of_answer {v : State} {claim : Option RecordName} (running : s.held = false) (lot : s.lotOpen = true)
    (enabled : s.outlets[n].state ≠ .disabled) (drive : s.outlets[n].drive = .strobe expires claim)
    (answer : answerStrobe n claim (advanceTo time s) = v) (slot : v.outlets[n].slot = s.outlets[n].slot) :
    ((∀ name, s.outlets[n].slot ≠ .due name) ∨ s.firesAllowed = false → exec (.ack time n) s = .next (finishEvent v)) ∧
    (∀ name, s.outlets[n].slot = .due name → s.firesAllowed = true →
      exec (.ack time n) s = .next (finishEvent (fireTests n name v))) := by
  have fires : v.firesAllowed = s.firesAllowed := by simp [State.firesAllowed, ← answer]
  rw [exec_ack running lot enabled drive, answer]
  obtain ⟨idle, due⟩ := retestDue_of_kept slot fires
  exact ⟨fun untested => by rw [idle untested], fun name isDue allowed => by rw [due name isDue allowed]⟩

end

/-- Settles O30: the claim stands and its record fires, or it has been withdrawn; the retest of a DUE slot is the same. -/
theorem ackRecordsFire : Obligations.AckRecordsFire := by
  intro time n s v expires running lot enabled answer
  rcases answer with ⟨name, k, r, route, drive, offset, at_k, decided, target, rfl⟩ | ⟨drive, rfl⟩
  · refine exec_ack_of_answer running lot enabled drive ?_ (by simp)
    rw [answerStrobe_standing (s := advanceTo time s) offset at_k decided,
      recordFire_of_some (s := modOutlet n _ (advanceTo time s)) n at_k,
      PocketRecord.fireRoute_of_decided decided target, modOutlet_modOutlet, ← target]
    simp only [decided, if_true]
    rfl
  · exact exec_ack_of_answer running lot enabled drive (answerStrobe_withdrawn n (advanceTo time s)) (by simp)

end Sys2Proof.Machine

/-! The close of a flight window (R86, R87): the miss is taken by its outlet, and then the place of its record decides what
becomes of the part. -/

namespace Sys2Proof.Machine

section

variable {s t : State} {n : Fin 16} {queue : List Entry} {k : Nat} {r : PocketRecord}

/-! ### The outlet takes the miss (R86) -/

/-- The outlet's counts after a miss that leaves the entries `queue`, before its miss limit is looked at. -/
def countMiss (n : Fin 16) (queue : List Entry) (s : State) : State :=
  modOutlet n Outlet.miss (modOutlet n (fun o => { o with queue := queue }) s)

/-- The whole of a miss that leaves the entries `queue`. -/
def takeMiss (n : Fin 16) (queue : List Entry) (s : State) : State :=
  accountMiss n (modOutlet n (fun o => { o with queue := queue }) s)

theorem countMiss_outlet (n m : Fin 16) (queue : List Entry) (s : State) : (countMiss n queue s).outlets[m]
    = if m = n then { s.outlets[m] with
        queue := queue, reserved := s.outlets[m].reserved - 1, missRun := min (s.outlets[m].missRun + 1) 15 }
      else s.outlets[m] := by
  rw [countMiss, modOutlet_outlet, modOutlet_outlet]
  by_cases same : n = m
  · simp [same, Outlet.miss, Config.missRunMax]
  · simp [same, Ne.symm same]

theorem countMiss_tracker (n : Fin 16) (queue : List Entry) (s : State) : (countMiss n queue s).tracker = s.tracker := by
  simp [countMiss]

theorem countMiss_notices (n : Fin 16) (queue : List Entry) (s : State) : (countMiss n queue s).notices = s.notices := by
  simp [countMiss]

theorem countMiss_limit_iff (n : Fin 16) (queue : List Entry) (s : State) :
    (countMiss n queue s).missLimitReached n = true ↔ s.missFaults n := by
  have entry : (countMiss n queue s).outletEntry n = s.outletEntry n := State.outletEntry_congr (by simp [countMiss]) n
  have missRun : (countMiss n queue s).outlets[n].missRun = min (s.outlets[n].missRun + 1) 15 := by
    rw [countMiss_outlet, if_pos rfl]
  unfold State.missLimitReached State.missFaults
  rw [entry, missRun]
  cases s.outletEntry n with
  | none => simp
  | some cfg => simp

theorem takeMiss_of_below (below : ¬ s.missFaults n) (queue : List Entry) : takeMiss n queue s = countMiss n queue s :=
  if_neg (mt (countMiss_limit_iff n queue s).mp below)

theorem takeMiss_of_limit (limit : s.missFaults n) (queue : List Entry) :
    takeMiss n queue s = faultOutlet n (countMiss n queue s) :=
  if_pos ((countMiss_limit_iff n queue s).mpr limit)

theorem takeMiss_tracker (n : Fin 16) (queue : List Entry) (s : State) :
    (takeMiss n queue s).tracker = { s.tracker with ring := (takeMiss n queue s).tracker.ring } := by
  by_cases limit : s.missFaults n
  · rw [takeMiss_of_limit limit, faultOutlet_tracker, countMiss_tracker]
  · rw [takeMiss_of_below limit, countMiss_tracker]

/-- The slot whose record a faulting outlet strands is the one that it held before the miss. -/
theorem countMiss_slot (n m : Fin 16) (queue : List Entry) (s : State) :
    (countMiss n queue s).outlets[m].slot = s.outlets[m].slot := by
  rw [countMiss_outlet]
  split <;> rfl

theorem takeMiss_ring_other (other : ∀ r, ¬ Holds s s.outlets[n].slot.name k r) (queue : List Entry) :
    (takeMiss n queue s).tracker.ring[k]? = s.tracker.ring[k]? := by
  have tracker := countMiss_tracker n queue s
  by_cases limit : s.missFaults n
  · rw [takeMiss_of_limit limit, faultOutlet_ring_other, tracker]
    rw [countMiss_slot]
    exact fun r held => other r (held.congr tracker.symm)
  · rw [takeMiss_of_below limit, tracker]

/-- A miss strands no record unless its outlet faults with a slot. -/
theorem takeMiss_ring (idle : ¬ s.missFaults n ∨ s.outlets[n].slot = .free) (queue : List Entry) (k : Nat) :
    (takeMiss n queue s).tracker.ring[k]? = s.tracker.ring[k]? := by
  rcases idle with below | free
  · rw [takeMiss_of_below below, countMiss_tracker]
  · refine takeMiss_ring_other (fun r held => ?_) queue
    rw [free] at held
    exact not_holds_none held

theorem isFiring_of_ne (phase : r.phase ≠ .firing) (name : RecordName) : isFiring name r = false := by
  simp [isFiring, phase]

/-- The record that a miss strands was DECIDED, so the FIRING records stand where they stood. -/
theorem takeMiss_isFiring (n : Fin 16) (queue : List Entry) (name : RecordName) (s : State) (k : Nat) :
    ((takeMiss n queue s).tracker.ring[k]?).map (isFiring name) = (s.tracker.ring[k]?).map (isFiring name) := by
  by_cases held : ∃ r, Holds s s.outlets[n].slot.name k r
  · obtain ⟨r, held⟩ := held
    have decided : r.phase ≠ .firing := by simp [held.decided]
    by_cases limit : s.missFaults n
    · have held' : Holds (countMiss n queue s) (countMiss n queue s).outlets[n].slot.name k r := by
        rw [countMiss_slot]
        exact held.congr (countMiss_tracker n queue s)
      rw [takeMiss_of_limit limit, faultOutlet_ring_held held', held.record]
      exact congrArg some ((isFiring_of_ne (by simp [PocketRecord.strand]) name).trans (isFiring_of_ne decided name).symm)
    · rw [takeMiss_of_below limit, countMiss_tracker]
  · rw [takeMiss_ring_other fun r h => held ⟨r, h⟩]

theorem takeMiss_firingPlace (n : Fin 16) (queue : List Entry) (name : RecordName) (s : State) :
    (takeMiss n queue s).firingPlace name = s.firingPlace name := by
  have marks : (takeMiss n queue s).tracker.ring.map (isFiring name) = s.tracker.ring.map (isFiring name) :=
    List.ext_getElem? fun k => by rw [List.getElem?_map, List.getElem?_map, takeMiss_isFiring]
  have found (ring : List PocketRecord) : ring.findIdx? (isFiring name) = (ring.map (isFiring name)).findIdx? id := by
    rw [List.findIdx?_map]
    rfl
  rw [State.firingPlace, State.firingPlace, found, marks, ← found, takeMiss_tracker]

theorem takeMiss_notice {i : Fin 11} (other : i ≠ Condition.outletFault.index) (n : Fin 16) (queue : List Entry) (s : State) :
    (takeMiss n queue s).notices[i] = s.notices[i] := by
  have apart : (Condition.outletFault.index : Nat) ≠ i.val := fun same => other (Fin.ext same.symm)
  by_cases limit : s.missFaults n
  · rw [takeMiss_of_limit limit, faultOutlet_notices]
    split <;> simp [raiseNotice_get, apart, countMiss_notices]
  · rw [takeMiss_of_below limit, countMiss_notices]

theorem MissTaken.of_below (below : ¬ s.missFaults n) (queue : List Entry) : MissTaken s (countMiss n queue s) n queue := by
  have self := countMiss_outlet n n queue s
  have notices := countMiss_notices n queue s
  rw [if_pos rfl] at self
  refine ⟨by rw [self], by rw [self], by simp [self], fun _ => by simp [self, notices], fun limit => absurd limit below,
    fun limit => absurd limit below, fun _ => by rw [notices], fun _ => by rw [self], fun _ _ _ limit => absurd limit below,
    fun m other => ?_⟩
  rw [countMiss_outlet, if_neg other]
  exact ⟨rfl, rfl, rfl, rfl, rfl⟩

/-- An outlet that faults by a miss: its books but for the state are those that the count has made. -/
theorem faultOutlet_books (n m : Fin 16) (s : State) : Outlet.sameBooks
    { s.outlets[m] with state := if m = n then .faulted else s.outlets[m].state } (faultOutlet n s).outlets[m] := by
  have books := faultOutlet_outlet n s m m.isLt
  simpa only [← Fin.ext_iff, eq_comm (a := n), Fin.getElem_fin] using books

theorem MissTaken.of_limit (limit : s.missFaults n) (queue : List Entry) :
    MissTaken s (faultOutlet n (countMiss n queue s)) n queue := by
  have self := countMiss_outlet n n queue s
  have tracker := countMiss_tracker n queue s
  rw [if_pos rfl] at self
  have notices := faultOutlet_notices n (countMiss n queue s)
  obtain ⟨state, committed, lotTotal, missRun, entries⟩ := faultOutlet_books n n (countMiss n queue s)
  have reserved := congrArg Outlet.reserved (faultOutlet_releases n n (countMiss n queue s))
  simp only [self] at state committed lotTotal missRun entries reserved notices
  rw [countMiss_notices] at notices
  refine ⟨entries, missRun, ⟨committed, lotTotal⟩, fun below => absurd limit below, fun _ => state, fun _ entered => ?_,
    fun again => ?_, fun idle => ?_, fun name k r _ slot offset at_k decided target => ?_, fun m other => ?_⟩
  · rw [notices, if_neg entered]
    refine (raiseNotice_get .outletFault n.val _ 3 (by omega)).trans ?_
    rw [countMiss_notices]
    rfl
  · rw [notices, if_pos again]
  · have free : s.outlets[n].slot = .free := idle.resolve_left fun below => below limit
    rw [reserved, free]
    rfl
  · have held : Holds (countMiss n queue s) s.outlets[n].slot.name k r :=
      Holds.congr ⟨by rw [slot]; exact offset, at_k, decided⟩ tracker
    refine ⟨?_, faultOutlet_ring_held (by rwa [countMiss_slot])⟩
    rw [reserved, heldFor_eq, held.namedDecided]
    simp [PocketRecord.decidedFor, decided, target, Nat.sub_sub]
  · have away := faultOutlet_books n m (countMiss n queue s)
    rw [countMiss_outlet, if_neg other, if_neg other] at away
    obtain ⟨state, committed, lotTotal, missRun, entries⟩ := away
    exact ⟨entries, committed, lotTotal, missRun, state⟩

theorem missTaken_takeMiss (n : Fin 16) (queue : List Entry) (s : State) : MissTaken s (takeMiss n queue s) n queue := by
  by_cases limit : s.missFaults n
  · rw [takeMiss_of_limit limit]
    exact .of_limit limit queue
  · rw [takeMiss_of_below limit]
    exact .of_below limit queue

end

/-! ### The fate of the part (R87) -/

/-- A booking that is made only for a part that counts (R100). -/
def bookIf (booked : Bool) (pocket : Nat) (report : SortReport) (s : State) : State :=
  if booked then book pocket report s else s

/-- What becomes of a FIRING ring record whose entry was missed. -/
def Entry.missedRecord (e : Entry) (r : PocketRecord) : PocketRecord :=
  if r.checked then r.settle (if e.counted then .lost else .void) else r.strand .missedDrop

section

variable {s t u : State} {n : Fin 16} {e : Entry} {queue : List Entry} {k : Nat} {r : PocketRecord} {booked : Bool}
  {pocket : Nat} {report : SortReport}

theorem bookIf_tracker (booked : Bool) (pocket : Nat) (report : SortReport) (s : State) :
    (bookIf booked pocket report s).tracker = s.tracker := by
  unfold bookIf
  split <;> simp

theorem bookIf_notice {i : Fin 11} (other : i ≠ Condition.unaccounted.index) (booked : Bool) (pocket : Nat)
    (report : SortReport) (s : State) : (bookIf booked pocket report s).notices[i] = s.notices[i] := by
  have apart : (Condition.unaccounted.index : Nat) ≠ i.val := fun same => other (Fin.ext same.symm)
  unfold bookIf
  split
  · simp [book, raiseNotice_get, apart]
  · rfl

theorem books_bookIf (booked : Bool) (pocket : Nat) (report : SortReport) (s : State) :
    Books s (bookIf booked pocket report s) booked pocket report := by
  cases booked with
  | false => exact ⟨rfl, nofun, fun _ => rfl, rfl⟩
  | true =>
    refine ⟨rfl, fun _ => ?_, nofun, rfl⟩
    exact raiseNotice_get .unaccounted pocket _ 8 (by omega)

theorem Books.congr_left (h : Books t u booked pocket report) (sup : t.sup = s.sup)
    (notice : t.notices[(8 : Fin 11)] = s.notices[(8 : Fin 11)]) (ltx : t.ltx = s.ltx) : Books s u booked pocket report :=
  ⟨sup ▸ h.sup, notice ▸ h.notice, notice ▸ h.quiet, ltx ▸ h.report⟩

/-- A part whose FIRING record stands in the ring. -/
theorem missFate_ring (n : Fin 16) (place : s.firingPlace e.name = some (.ring k)) (at_k : s.tracker.ring[k]? = some r) :
    missFate n e s = { bookIf (r.checked && e.counted) (s.pocketAt k) (e.report n .unaccounted (s.pocketAt k) none) s with
      tracker := { s.tracker with ring := s.tracker.ring.set k (e.missedRecord r) } } := by
  have changed (f : PocketRecord → PocketRecord) (t : State) (tracker : t.tracker = s.tracker) :
      modRing k f t = { t with tracker := { s.tracker with ring := s.tracker.ring.set k (f r) } } := by
    rw [modRing_of_some (tracker ▸ at_k) f, tracker]
  simp only [missFate, place, at_k, Option.any_some, Entry.missedRecord]
  cases r.checked <;> cases e.counted <;> exact changed _ _ (by simp)

/-- A part whose FIRING record stands in the stack. -/
theorem missFate_stack {d : Nat} (n : Fin 16) (place : s.firingPlace e.name = some (.stack d)) :
    missFate n e s = { bookIf e.counted (s.pocketOf (.stack d)) (e.report n .unaccounted (s.pocketOf (.stack d)) none) s with
      tracker := { s.tracker with
        stack := s.tracker.stack.modify d (.settle (if e.counted then .lost else .void)) } } := by
  simp only [missFate, place]
  cases e.counted <;> rfl

/-- A part that no FIRING record stands for any more. -/
theorem missFate_missing (n : Fin 16) (place : s.firingPlace e.name = none) :
    missFate n e s = bookIf e.counted e.pocket (e.report n .unaccounted e.pocket none) s := by
  simp only [missFate, place]
  rfl

theorem missFate_stack_of_not_stack (n : Fin 16) (place : ∀ d, s.firingPlace e.name ≠ some (.stack d)) :
    (missFate n e s).tracker.stack = s.tracker.stack := by
  cases found : s.firingPlace e.name with
  | none => rw [missFate_missing n found, bookIf_tracker]
  | some p =>
    cases p with
    | ring k =>
      obtain ⟨r, at_k, _⟩ := Accounts.firingPlace_ring found
      rw [missFate_ring n found at_k]
    | stack d => exact absurd found (place d)

/-- The fate of a part changes the ring at its FIRING record alone. -/
theorem missFate_ring_other (n : Fin 16) {j : Nat} (place : s.firingPlace e.name ≠ some (.ring j)) :
    (missFate n e s).tracker.ring[j]? = s.tracker.ring[j]? := by
  cases found : s.firingPlace e.name with
  | none => rw [missFate_missing n found, bookIf_tracker]
  | some p =>
    cases p with
    | ring k =>
      have apart : k ≠ j := fun same => place (same ▸ found)
      obtain ⟨r, at_k, _⟩ := Accounts.firingPlace_ring found
      rw [missFate_ring n found at_k]
      exact List.getElem?_set_ne apart
    | stack d => rw [missFate_stack n found]

theorem missFate_notice {i : Fin 11} (other : i ≠ Condition.unaccounted.index) (n : Fin 16) (e : Entry) (s : State) :
    (missFate n e s).notices[i] = s.notices[i] := by
  cases found : s.firingPlace e.name with
  | none => rw [missFate_missing n found, bookIf_notice other]
  | some p =>
    cases p with
    | ring k =>
      obtain ⟨r, at_k, _⟩ := Accounts.firingPlace_ring found
      rw [missFate_ring n found at_k]
      exact bookIf_notice other ..
    | stack d =>
      rw [missFate_stack n found]
      exact bookIf_notice other ..

/-- The fate of the part leaves the outlets, OUTLET_FAULT and the stranded record of the slot as the miss has made them. -/
theorem MissTaken.missFate (h : MissTaken s t n queue) (n' : Fin 16) (e : Entry) :
    MissTaken s (missFate n' e t) n queue := by
  have outlets := missFate_outlets n' e t
  have notice : (Machine.missFate n' e t).notices[(3 : Fin 11)] = t.notices[(3 : Fin 11)] :=
    missFate_notice (by decide) n' e t
  refine ⟨outlets ▸ h.queue, outlets ▸ h.missRun, outlets ▸ h.counts, fun below => ?_, outlets ▸ h.limit,
    notice ▸ h.notice, notice ▸ h.again, outlets ▸ h.reserved, fun name k r limit slot offset at_k decided target => ?_, outlets ▸ h.others⟩
  · rw [outlets, notice]
    exact h.below below
  · obtain ⟨reserved, stranded⟩ := h.slot name k r limit slot offset at_k decided target
    have elsewhere : t.firingPlace e.name ≠ some (.ring k) := fun place => by
      obtain ⟨r', at_k', _, firing⟩ := Accounts.firingPlace_ring place
      obtain rfl := Option.some.inj (stranded.symm.trans at_k')
      nomatch firing
    rw [outlets, missFate_ring_other n' elsewhere]
    exact ⟨reserved, stranded⟩

end

/-! ### The head entry is missed, block by block -/

section

variable {s : State} {n : Fin 16} {e : Entry} {rest : List Entry} {k d : Nat} {r : PocketRecord}

theorem exec_flightMaxMiss {cfg : OutletEntry} (running : s.held = false) (lot : s.lotOpen = true)
    (entry : s.outletEntry n = some cfg) (queue : s.outlets[n].queue = e :: rest) :
    exec (.flightMaxMiss n) s = .next (finishEvent (missHead n e rest (advanceTo (e.fireTime + cfg.flightMax) s))) := by
  calc exec (.flightMaxMiss n) s = .next (whenRunning (inLot (onFlightMaxMiss n)) s) := rfl
    _ = .next (finishEvent (missHead n e rest (advanceTo (e.fireTime + cfg.flightMax) s))) := by
      simp only [whenRunning, running, Bool.false_eq_true, if_false, inLot, lot, if_true, onFlightMaxMiss, entry, queue]

theorem missHead_eq (n : Fin 16) (e : Entry) (rest : List Entry) (s : State) :
    missHead n e rest s = missFate n e (takeMiss n rest s) := rfl

theorem missTaken_missHead (n : Fin 16) (e : Entry) (rest : List Entry) (s : State) :
    MissTaken s (missHead n e rest s) n rest :=
  (missTaken_takeMiss n rest s).missFate n e

theorem takeMiss_pocketOf (n : Fin 16) (queue : List Entry) (s : State) :
    (takeMiss n queue s).pocketOf = s.pocketOf := by
  have tables : (takeMiss n queue s).tables = s.tables := by simp [takeMiss]
  have loadPocket := congrArg Tracker.loadPocket (takeMiss_tracker n queue s)
  funext p
  cases p <;> simp only [State.pocketOf, State.z_congr tables, State.pocketAt_congr tables loadPocket]

theorem takeMiss_keeps (n : Fin 16) (queue : List Entry) (at_k : s.tracker.ring[k]? = some r) (firing : r.phase = .firing) :
    (takeMiss n queue s).tracker.ring[k]? = some r :=
  accountMiss_keeps (s := modOutlet n (fun o => { o with queue := queue }) s) at_k (by simp [firing]) n

/-- What the outlet's part of a miss leaves for a booking to write. -/
theorem Books.takeMiss {u : State} {queue : List Entry} {booked : Bool} {pocket : Nat} {report : SortReport}
    (h : Books (takeMiss n queue s) u booked pocket report) : Books s u booked pocket report :=
  h.congr_left (by simp [Machine.takeMiss]) (takeMiss_notice (by decide) n queue s) (by simp [Machine.takeMiss])

theorem missHead_ring (at_k : s.tracker.ring[k]? = some r) (place : s.firingPlace e.name = some (.ring k)) (n : Fin 16)
    (rest : List Entry) : missHead n e rest s
      = { bookIf (r.checked && e.counted) (s.pocketAt k) (e.report n .unaccounted (s.pocketAt k) none) (takeMiss n rest s) with
          tracker := { (takeMiss n rest s).tracker with
            ring := (takeMiss n rest s).tracker.ring.set k (e.missedRecord r) } } := by
  obtain ⟨r', at_k', _, firing⟩ := Accounts.firingPlace_ring place
  obtain rfl := Option.some.inj (at_k.symm.trans at_k')
  have pocket : (takeMiss n rest s).pocketAt k = s.pocketAt k := congrFun (takeMiss_pocketOf n rest s) (.ring k)
  rw [missHead_eq, missFate_ring n ((takeMiss_firingPlace ..).trans place) (takeMiss_keeps n rest at_k firing), pocket]

theorem missHead_stack (place : s.firingPlace e.name = some (.stack d)) (n : Fin 16) (rest : List Entry) :
    missHead n e rest s
      = { bookIf e.counted (s.pocketOf (.stack d)) (e.report n .unaccounted (s.pocketOf (.stack d)) none)
            (takeMiss n rest s) with
          tracker := { (takeMiss n rest s).tracker with
            stack := (takeMiss n rest s).tracker.stack.modify d (.settle (if e.counted then .lost else .void)) } } := by
  rw [missHead_eq, missFate_stack n ((takeMiss_firingPlace ..).trans place), takeMiss_pocketOf]

theorem missHead_missing (place : s.firingPlace e.name = none) (n : Fin 16) (rest : List Entry) :
    missHead n e rest s = bookIf e.counted e.pocket (e.report n .unaccounted e.pocket none) (takeMiss n rest s) := by
  rw [missHead_eq, missFate_missing n ((takeMiss_firingPlace ..).trans place)]

/-- R87, R100: which part is booked, and with which pocket, by the place of its record. -/
theorem missHead_books (n : Fin 16) (e : Entry) (rest : List Entry) (s : State) {pocket : Nat} {booked : Bool}
    (row : (∃ k r, s.firingPlace e.name = some (.ring k) ∧ s.tracker.ring[k]? = some r ∧ pocket = s.pocketAt k
        ∧ booked = (r.checked && e.counted)) ∨
      (∃ d, s.firingPlace e.name = some (.stack d) ∧ pocket = s.pocketAt (s.z + (d + 1)) ∧ booked = e.counted) ∨
      (s.firingPlace e.name = none ∧ pocket = e.pocket ∧ booked = e.counted)) :
    Books s (missHead n e rest s) booked pocket (e.report n .unaccounted pocket none) := by
  refine Books.takeMiss (n := n) (queue := rest) ?_
  rcases row with ⟨k, r, place, at_k, rfl, rfl⟩ | ⟨d, place, rfl, rfl⟩ | ⟨place, rfl, rfl⟩
  · rw [missHead_ring at_k place]
    exact { books_bookIf .. with }
  · rw [missHead_stack place]
    exact { books_bookIf .. with }
  · rw [missHead_missing place]
    exact books_bookIf ..

theorem missHead_record (n : Fin 16) (rest : List Entry) (place : s.firingPlace e.name = some (.ring k))
    (at_k : s.tracker.ring[k]? = some r) : (missHead n e rest s).tracker.ring[k]? = some (e.missedRecord r) := by
  have length : k < (takeMiss n rest s).tracker.ring.length := by
    obtain ⟨_, at_k', _, _⟩ := Accounts.firingPlace_ring ((takeMiss_firingPlace n rest e.name s).trans place)
    exact (List.getElem?_eq_some_iff.mp at_k').1
  rw [missHead_ring at_k place]
  exact List.getElem?_set_self length

theorem missHead_stack_record (n : Fin 16) (rest : List Entry) (place : s.firingPlace e.name = some (.stack d))
    (at_d : s.tracker.stack[d]? = some r) : (missHead n e rest s).tracker.stack
      = s.tracker.stack.set d (r.settle (if e.counted then .lost else .void)) := by
  obtain ⟨inStack, rfl⟩ := List.getElem?_eq_some_iff.mp at_d
  rw [missHead_stack place, takeMiss_tracker]
  simp [List.modify_eq_set_getElem?, inStack]

theorem missHead_stack_kept (n : Fin 16) (rest : List Entry) (place : ∀ d, s.firingPlace e.name ≠ some (.stack d)) :
    (missHead n e rest s).tracker.stack = s.tracker.stack := by
  rw [missHead_eq, missFate_stack_of_not_stack, takeMiss_tracker]
  intro d
  rw [takeMiss_firingPlace]
  exact place d

theorem missHead_ring_other (idle : ¬ s.missFaults n ∨ s.outlets[n].slot = .free) (rest : List Entry)
    (place : s.firingPlace e.name ≠ some (.ring k)) :
    (missHead n e rest s).tracker.ring[k]? = s.tracker.ring[k]? := by
  rw [missHead_eq, missFate_ring_other, takeMiss_ring idle]
  rwa [takeMiss_firingPlace]

end

/-- Settles O34: the outlet takes the miss, which moves no FIRING record, and then the place of the entry's record decides. -/
theorem flightMaxIsMiss : Obligations.FlightMaxIsMiss := by
  intro n s cfg e rest running lot entry queue
  refine ⟨_, exec_flightMaxMiss running lot entry queue, ?_⟩
  have missed := missTaken_missHead n e rest (advanceTo (e.fireTime + cfg.flightMax) s)
  have books {pocket : Nat} {booked : Bool} := missHead_books n e rest (advanceTo (e.fireTime + cfg.flightMax) s)
    (pocket := pocket) (booked := booked)
  refine ⟨{ missed with }, fun pocket booked row => (books row).congr_left rfl rfl rfl, fun k r place at_k => ⟨?_, ?_⟩,
    fun d r place at_d => ?_, fun place => ?_, fun idle j place => ?_, ?_, ?_, ?_⟩
  · refine (missHead_record (s := advanceTo _ s) n rest place at_k).trans ?_
    rw [Entry.missedRecord]
    rfl
  · exact missHead_stack_kept n rest fun d stacked => nomatch place.symm.trans stacked
  · exact missHead_stack_record n rest place at_d
  · exact missHead_stack_kept n rest fun d stacked => nomatch place.symm.trans stacked
  · exact missHead_ring_other (s := advanceTo _ s) idle rest place
  all_goals simp [advanceTo]

end Sys2Proof.Machine

/-! The balance of counted parts across one drop (R104): a confirmation moves a counted part from its entry to the lot total,
and the stage tests that follow close the lot only when nothing is left to count. -/

namespace Sys2Proof.Machine

section

variable {s t u : State}

/-- Both sides of R104's balance are the same in both states. -/
structure SameBalance (s t : State) : Prop where
  present : t.sup.present = s.sup.present
  accounted : t.accounted = s.accounted

theorem SameBalance.refl (s : State) : SameBalance s s := ⟨rfl, rfl⟩

theorem SameBalance.trans (h : SameBalance s t) (h' : SameBalance t u) : SameBalance s u :=
  ⟨h'.present.trans h.present, h'.accounted.trans h.accounted⟩

theorem SameAccount.balance (h : SameAccount s t) : SameBalance s t where
  present := h.present
  accounted := by
    rw [State.accounted_eq, State.accounted_eq, State.sumOutlets_congr fun n => (h.outlets n).lotTotal,
      State.sumOutlets_congr fun n => Outlet.countedEntries_congr (h.outlets n).queue, h.unaccounted, State.standingCount,
      State.standingCount, h.ring]

/-! ### The close of a lot -/

/-- What has settled has no part left in the ring or in the queues. -/
theorem State.accounted_of_settled (settled : s.settleComplete = true) :
    s.accounted = s.sumOutlets Outlet.lotTotal + s.sup.unaccounted := by
  obtain ⟨queues, ring⟩ := State.settleComplete_iff.mp settled
  have entries : s.sumOutlets Outlet.countedEntries = 0 :=
    State.sumOutlets_eq_zero fun n => by rw [Outlet.countedEntries, queues]; rfl
  have standing : s.standingCount = 0 := by
    rw [State.standingCount, List.length_eq_zero_iff, List.filter_eq_nil_iff]
    intro r hr
    simp [ring r hr]
  rw [State.accounted_eq, entries, standing]
  omega

/-- R155: the close of a lot that has settled loses no part. -/
theorem closeLot_balance (settled : s.settleComplete = true) (kind : EndKind) : SameBalance s (closeLot kind s) := by
  have stopped := stopOutlets_account (enqueue 0 (.lotSummary (s.lotSummary kind)) s)
  have closedSettled : (closeLot kind s).settleComplete = true :=
    State.settleComplete_iff.mpr ⟨fun n => ((stopped.outlets n).queue).trans ((State.settleComplete_iff.mp settled).1 n),
      fun _ none => nomatch none⟩
  refine ⟨rfl, ?_⟩
  rw [State.accounted_of_settled settled, State.accounted_of_settled closedSettled]
  exact congrArg (· + s.sup.unaccounted) (State.sumOutlets_congr fun n => (stopped.outlets n).lotTotal)

/-! ### The stage tests -/

/-- A stage test changes at most the clearance stage. -/
theorem setStageIf_account (c : Prop) [Decidable c] (stage : Stage) (s : State) :
    SameAccount s (if c then setStage stage s else s) := by
  split
  · exact setStage_account s stage
  · exact .refl s

theorem setStage_stage_ne {stage other : Stage} (differs : stage ≠ other) (s : State) :
    (setStage stage s).stage ≠ some other := by
  cases clearance : s.sup.clearance <;> simp [State.stage, setStage, clearance, differs]

theorem runOutStep_account (s : State) : SameAccount s (runOutStep s) := setStageIf_account ..

theorem unsettleStep_account (s : State) : SameAccount s (unsettleStep s) := setStageIf_account ..

theorem settleStep_account (s : State) : SameAccount s (settleStep s) := setStageIf_account ..

/-- R153, R154: after the tests of SETTLE and SUMMARY, a lot in SUMMARY has settled. -/
theorem settleStep_summary (summary : (settleStep (unsettleStep s)).stage = some .summary) :
    (settleStep (unsettleStep s)).settleComplete = true := by
  have settled := (settleStep_account (unsettleStep s)).settleComplete
  have unsettled := (unsettleStep_account s).settleComplete
  by_contra incomplete
  have before : ¬ (unsettleStep s).settleComplete = true := fun complete => incomplete (settled.trans complete)
  have first : ¬ s.settleComplete = true := fun complete => before (unsettled.trans complete)
  rw [settleStep, if_neg fun test => before test.2, unsettleStep] at summary
  split at summary
  · exact setStage_stage_ne (by decide) s summary
  · next waits => exact waits ⟨summary, first⟩

theorem State.stage_of_closeKind {kind : EndKind} (close : s.closeKind = some kind) : s.stage = some .summary := by
  unfold State.closeKind at close
  split at close
  · next c clearance =>
    split at close
    · next tests => rw [State.stage, clearance, Option.map_some, tests.1]
    · nomatch close
  · nomatch close

/-- The stage tests at the end of an event keep the balance, also when they close the lot. -/
theorem advanceClearance_balance (s : State) : SameBalance s (advanceClearance s) := by
  have staged : SameBalance s (settleStep (unsettleStep (runOutStep s))) :=
    ((runOutStep_account s).trans ((unsettleStep_account _).trans (settleStep_account _))).balance
  unfold advanceClearance summaryStep
  split
  · next kind close => exact staged.trans (closeLot_balance (settleStep_summary (State.stage_of_closeKind close)) kind)
  · exact staged

theorem finishEvent_balance (s : State) : SameBalance s (finishEvent s) :=
  (advanceClearance_balance s).trans (finishLine_same (advanceClearance s)).account.balance

/-! ### A drop that confirms -/

theorem countUp_of_lt {n : Nat} (below : n < Config.countMax) : countUp n = n + 1 := Nat.min_eq_left below

variable {n : Fin 16} {e : Entry} {rest : List Entry}

/-- R60: below the largest lot total, the part of a counted head entry moves to the lot total. -/
theorem confirm_balance (queue : s.outlets[n].queue = e :: rest) (below : s.outlets[n].lotTotal < Config.countMax)
    (capacity : Nat) : SameBalance s (modOutlet n (fun o => o.confirm e.counted capacity rest) s) := by
  have others (m : Fin 16) (other : m ≠ n) :
      (modOutlet n (fun o => o.confirm e.counted capacity rest) s).outlets[m] = s.outlets[m] := by
    rw [modOutlet_outlet, if_neg other.symm]
  have totals := State.sumOutlets_change (count := Outlet.lotTotal) n others
  have entries := State.sumOutlets_change (count := Outlet.countedEntries) n others
  have moved : (s.outlets[n].confirm e.counted capacity rest).lotTotal
        + (s.outlets[n].confirm e.counted capacity rest).countedEntries
      = s.outlets[n].lotTotal + s.outlets[n].countedEntries := by
    have total := countUp_of_lt below
    cases counted : e.counted with
    | false =>
      simp only [Outlet.confirm, Outlet.countedEntries, queue, List.filter_cons, counted, Bool.false_eq_true, if_false]
    | true =>
      simp only [Outlet.confirm, Outlet.countedEntries, queue, List.filter_cons, counted, if_true, List.length_cons, total]
      omega
  have standing : (modOutlet n (fun o => o.confirm e.counted capacity rest) s).standingCount = s.standingCount := rfl
  rw [modOutlet_outlet, if_pos rfl] at totals entries
  refine ⟨rfl, ?_⟩
  rw [State.accounted_eq, State.accounted_eq, standing, modOutlet_sup]
  omega

theorem raiseFull_balance (n : Fin 16) (e : Entry) (cfg : OutletEntry) (before : Nat) (s : State) :
    SameBalance s (raiseFull n e cfg before s) := by
  have noticed : SameAccount s (if before + 1 = cfg.capacity then raiseNotice .outletFull n.val s else s) := by
    split
    · exact (raiseNotice_same _ _ _).account
    · exact .refl s
  unfold raiseFull
  dsimp only
  split
  · exact (noticed.trans (raiseFault_account _ _ _ _)).balance
  · exact noticed.balance

/-- A change of a ring record that stands neither before nor after keeps the balance. -/
theorem modRing_balance {k : Nat} {r : PocketRecord} {f : PocketRecord → PocketRecord} (at_k : s.tracker.ring[k]? = some r)
    (same : (f r).standing = r.standing) : SameBalance s (modRing k f s) := by
  have standing := standingCount_modRing f at_k
  rw [same] at standing
  refine ⟨rfl, ?_⟩
  rw [State.accounted_eq, State.accounted_eq, Nat.add_right_cancel standing]
  rfl

/-- R84: the FIRING record that becomes GONE stands for no part. -/
theorem confirmRecord_balance (n : Fin 16) (e : Entry) (sweep : Bool) (s : State) :
    SameBalance s (confirmRecord n e sweep s) := by
  unfold confirmRecord
  split
  · next p place =>
    refine SameBalance.trans ?_ (offerReport_account _ _).balance
    cases p with
    | ring k =>
      obtain ⟨r, at_k, _, phase⟩ := Accounts.firingPlace_ring place
      refine modRing_balance at_k ?_
      rw [PocketRecord.standing_eq_false rfl, PocketRecord.standing_eq_false (by rw [phase]; rfl)]
    | stack d => exact (modStack_account _ _ _).balance
  · exact (offerReport_account _ _).balance

theorem takeDrop_balance (below : s.outlets[n].lotTotal < Config.countMax) (cfg : OutletEntry) :
    SameBalance s (takeDrop n cfg s) := by
  have stray : SameBalance s (strayDrop n s) := ⟨rfl, rfl⟩
  unfold takeDrop
  split
  · next e rest queue =>
    split
    · exact stray
    · exact (((confirm_balance queue below cfg.capacity).trans (Accounts.countRecovered_account _ _).balance).trans
        (raiseFull_balance ..)).trans (confirmRecord_balance ..)
  · exact stray

theorem onDrop_balance (below : s.outlets[n].lotTotal < Config.countMax) : SameBalance s (onDrop n s) := by
  unfold onDrop
  split
  · exact .refl s
  · split
    · exact (takeDrop_balance below _).trans (finishEvent_balance _)
    · exact .refl s

end

/-- Settles O35: what a drop does, whether it is ignored, stray or a confirmation, and the stage tests behind it, keep both
sides of the balance. -/
theorem dropKeepsBalance : Obligations.DropKeepsBalance := by
  intro time n s below
  have balance : SameBalance s (whenRunning (fun s => inLot (onDrop n) (advanceTo time s)) s) := by
    have advanced : SameBalance s (advanceTo time s) := (advanceTo_same s time).account.balance
    unfold whenRunning
    split
    · exact .refl s
    · unfold inLot
      dsimp only
      split
      · exact advanced.trans (onDrop_balance (s := advanceTo time s) below)
      · exact advanced
  exact ⟨_, rfl, balance.present, balance.accounted⟩

end Sys2Proof.Machine

/-! A check sample that finds a part (R96 to R98): what the record at Z has with an outlet is taken back, the record becomes
RETAINED and PART_RETAINED is raised. -/

namespace Sys2Proof.Machine

section

variable {s t u : State} {n : Fin 16} {queue : List Entry} {r : PocketRecord} {k : Nat}

/-! ### A fault, block by block -/

/-- What a fault makes of the Supervisor's record depends on that record alone. -/
theorem raiseFault_sup_congr (sup : t.sup = s.sup) (code : FaultCode) (pocket : Nat) (seq : Option Nat) :
    (raiseFault code pocket seq t).sup = (raiseFault code pocket seq s).sup := by
  unfold raiseFault
  rw [sup]
  cases s.sup.engine <;> simp [enterHalted, sup]

/-- R78, R135: a fault ends the slots where it halts the engine. -/
theorem raiseFault_slot (code : FaultCode) (pocket : Nat) (seq : Option Nat) (s : State) (m : Fin 16) :
    (raiseFault code pocket seq s).outlets[m].slot = if s.firesAllowed then .free else s.outlets[m].slot := by
  unfold raiseFault State.firesAllowed
  cases s.sup.engine <;> simp [enterHalted, endSlots]

/-! ### Misses seen from another state -/

theorem State.missFaults_congr (outlets : t.outlets = s.outlets) (tables : t.tables = s.tables) (n : Fin 16) :
    t.missFaults n ↔ s.missFaults n := by
  simp only [State.missFaults, State.outletEntry_congr tables, outlets]

/-- What follows a miss and leaves the outlets but for their slots, OUTLET_FAULT and the record of the slot. -/
theorem MissTaken.congr_right (h : MissTaken s t n queue)
    (outlets : ∀ m : Fin 16, u.outlets[m] = { t.outlets[m] with slot := u.outlets[m].slot })
    (notice : u.notices[(3 : Fin 11)] = t.notices[(3 : Fin 11)])
    (ring : ∀ (k : Nat) (r : PocketRecord), s.tracker.ring[k]? = some r → r.phase = .decided → u.tracker.ring[k]? = t.tracker.ring[k]?) :
    MissTaken s u n queue := by
  refine ⟨?_, ?_, ?_, ?_, ?_, notice ▸ h.notice, notice ▸ h.again, ?_, fun name k r limit slot offset at_k decided target => ?_,
    fun m other => ?_⟩
  · rw [outlets n]; exact h.queue
  · rw [outlets n]; exact h.missRun
  · rw [outlets n]; exact h.counts
  · rw [outlets n, notice]; exact h.below
  · rw [outlets n]; exact h.limit
  · rw [outlets n]; exact h.reserved
  · rw [outlets n, ring k r at_k decided]; exact h.slot name k r limit slot offset at_k decided target
  · rw [outlets m]; exact h.others m other

/-- The same miss from a state with the same outlets, notices, tables and names, and the same DECIDED records. -/
theorem MissTaken.congr_left (h : MissTaken t u n queue) (outlets : t.outlets = s.outlets) (notices : t.notices = s.notices)
    (tables : t.tables = s.tables) (names : t.ringNames = s.ringNames)
    (ring : ∀ (k : Nat) (r : PocketRecord), s.tracker.ring[k]? = some r → r.phase = .decided → t.tracker.ring[k]? = some r) :
    MissTaken s u n queue := by
  have limit := State.missFaults_congr outlets tables n
  refine ⟨h.queue, ?_, ?_, ?_, ?_, ?_, ?_, ?_, fun name k r faults slot offset at_k decided target => ?_, fun m other => ?_⟩
  · exact outlets ▸ h.missRun
  · exact outlets ▸ h.counts
  · rw [← limit, ← outlets, ← notices]; exact h.below
  · rw [← limit]; exact h.limit
  · rw [← limit, ← outlets, ← notices]; exact h.notice
  · rw [← outlets, ← notices]; exact h.again
  · rw [← limit, ← outlets]; exact h.reserved
  · rw [← outlets] at slot ⊢
    exact h.slot name k r (limit.mpr faults) slot ((State.ringOffset_of_names names name).trans offset)
      (ring k r at_k decided) decided target
  · rw [← outlets]; exact h.others m other

/-- R97, R99: the removal of a record's entry is a miss of the outlet whose queue holds it. -/
theorem missEntryOf_eq_takeMiss {name : RecordName} (entry : s.entryOutlet name = some n) :
    missEntryOf name s = takeMiss n (s.outlets[n].queue.eraseP fun e => e.name == name) s := by
  simp only [missEntryOf, entry]
  rfl

theorem missEntryOf_tracker (name : RecordName) (s : State) :
    (missEntryOf name s).tracker = { s.tracker with ring := (missEntryOf name s).tracker.ring } := by
  cases entry : s.entryOutlet name with
  | none => simp only [missEntryOf, entry]
  | some n => rw [missEntryOf_eq_takeMiss entry, takeMiss_tracker]

/-! ### The sample -/

/-- The state in which the record at Z is sampled: the check-delay timer has expired and the record is checked. -/
def sampled (expires : Nat) (s : State) : State := markChecked (stopCheckTimer (advanceTo expires s))

theorem exec_checkSample {expires : Nat} (running : s.held = false) (lot : s.lotOpen = true)
    (timer : s.tracker.checkTimer = some expires) (at_z : s.tracker.ring[s.z]? = some r) (check : Bool) :
    exec (.checkSample check) s = .next (finishEvent
      (if check then samplePresent r (sampled expires s) else sampleClear r (sampled expires s))) := by
  have at_z' : (stopCheckTimer (advanceTo expires s)).tracker.ring[(stopCheckTimer (advanceTo expires s)).z]? = some r := at_z
  calc exec (.checkSample check) s = .next (whenRunning (inLot (onCheckSample check)) s) := rfl
    _ = .next (finishEvent (takeSample check (stopCheckTimer (advanceTo expires s)))) := by
      simp only [whenRunning, running, Bool.false_eq_true, if_false, inLot, lot, if_true, onCheckSample, timer]
    _ = _ := by
      rw [takeSample, at_z']
      rfl

theorem sampled_ring (expires : Nat) (s : State) (k : Nat) : (sampled expires s).tracker.ring[k]?
    = if s.z = k then (s.tracker.ring[k]?).map fun r => { r with checked := true } else s.tracker.ring[k]? :=
  modRing_get s.z k _ (stopCheckTimer (advanceTo expires s))

theorem missEntryOf_sampled {name : RecordName} (entry : s.entryOutlet name = some n) (expires : Nat) :
    missEntryOf name (sampled expires s)
      = takeMiss n (s.outlets[n].queue.eraseP fun e => e.name == name) (sampled expires s) :=
  missEntryOf_eq_takeMiss (s := sampled expires s) entry

theorem sampled_names (expires : Nat) (s : State) : (sampled expires s).ringNames = s.ringNames :=
  ringNames_modRing (s := stopCheckTimer (advanceTo expires s)) fun _ _ => rfl

/-- R59, R97: what an outlet holds of a record found present is taken back. -/
def takeBack (r : PocketRecord) (s : State) : State :=
  if r.phase = .firing then missEntryOf r.name s else releaseIfDecided r s

/-- R96 to R98: the column of CHECK active, row by row. -/
theorem samplePresent_eq (r : PocketRecord) (s : State) : samplePresent r s
    = if r.phase = .retained then s else retain r (r.counted && keepsCounted r.phase) (takeBack r s) := by
  unfold samplePresent takeBack releaseIfDecided
  cases phase : r.phase <;> simp [keepsCounted]

theorem takeBack_of_not_firing (other : r.phase ≠ .firing) (s : State) : takeBack r s = releaseIfDecided r s := if_neg other

theorem takeBack_firing (firing : r.phase = .firing) (s : State) : takeBack r s = missEntryOf r.name s := if_pos firing

theorem takeBack_sup (r : PocketRecord) (s : State) : (takeBack r s).sup = s.sup := by unfold takeBack; split <;> simp

theorem takeBack_tables (r : PocketRecord) (s : State) : (takeBack r s).tables = s.tables := by
  unfold takeBack; split <;> simp

theorem takeBack_ltx (r : PocketRecord) (s : State) : (takeBack r s).ltx = s.ltx := by unfold takeBack; split <;> simp

theorem takeBack_lrx (r : PocketRecord) (s : State) : (takeBack r s).lrx = s.lrx := by unfold takeBack; split <;> simp

theorem takeBack_tracker (r : PocketRecord) (s : State) :
    (takeBack r s).tracker = { s.tracker with ring := (takeBack r s).tracker.ring } := by
  unfold takeBack
  split
  · exact missEntryOf_tracker r.name s
  · rw [releaseIfDecided_tracker]

theorem takeBack_loadPocket (r : PocketRecord) (s : State) : (takeBack r s).tracker.loadPocket = s.tracker.loadPocket := by
  rw [takeBack_tracker]

/-- A miss strands DECIDED records, so a FIRING record stays where it stands. -/
theorem takeBack_keeps {r r' : PocketRecord} (at_k : s.tracker.ring[k]? = some r') (same : r'.phase = r.phase) :
    (takeBack r s).tracker.ring[k]? = some r' := by
  unfold takeBack
  split
  · next firing => exact missEntryOf_keeps at_k (by simp [same, firing]) r.name
  · rwa [releaseIfDecided_tracker]

/-! ### A record that is retained -/

theorem retain_ring (r : PocketRecord) (counted : Bool) (s : State) (k : Nat) : (retain r counted s).tracker.ring[k]?
    = if s.z = k then
        (s.tracker.ring[k]?).map fun r => { r with phase := .retained, target := none, counted := counted }
      else s.tracker.ring[k]? := by
  rw [retain, raiseFault_tracker, modRing_get]

theorem retain_sup (sup : t.sup = s.sup) (tracker : t.tracker.loadPocket = s.tracker.loadPocket) (r : PocketRecord)
    (counted : Bool) : (retain r counted t).sup = (raiseFault .partRetained s.faultPocket r.seq s).sup := by
  have pocket : t.faultPocket = s.faultPocket := by rw [State.faultPocket, tracker, State.faultPocket]
  rw [retain, pocket]
  exact raiseFault_sup_congr (by rw [modRing_sup, sup]) ..

theorem retain_outlet (r : PocketRecord) (counted : Bool) (s : State) (m : Fin 16) :
    (retain r counted s).outlets[m] = { s.outlets[m] with slot := if s.firesAllowed then .free else s.outlets[m].slot } := by
  rw [retain, raiseFault_outlet, raiseFault_slot]
  rfl

theorem retain_notice {i : Fin 11} (other : i ≠ Condition.halted.index) (r : PocketRecord) (counted : Bool) (s : State) :
    (retain r counted s).notices[i] = s.notices[i] := by
  rw [retain, raiseFault_notice _ _ _ _ other, modRing_notices]

end

section

variable {s : State} {r : PocketRecord} {n : Fin 16}

/-- A sample writes ring records alone. -/
theorem samplePresent_tracker (r : PocketRecord) (s : State) :
    (samplePresent r s).tracker = { s.tracker with ring := (samplePresent r s).tracker.ring } := by
  rw [samplePresent_eq]
  split
  · rfl
  · have tracker : (takeBack r s).tracker = { s.tracker with ring := (takeBack r s).tracker.ring } := takeBack_tracker r s
    simp only [retain, raiseFault_tracker, modRing, setRing]
    rw [tracker]

/-- The record at Z after a sample that finds it present. -/
theorem samplePresent_record (expires : Nat) (at_z : s.tracker.ring[s.z]? = some r) :
    (samplePresent r (sampled expires s)).tracker.ring[s.z]? = some (if r.phase = .retained then { r with checked := true }
      else { r with checked := true, phase := .retained, target := none, counted := r.counted && keepsCounted r.phase }) := by
  have marked : (sampled expires s).tracker.ring[s.z]? = some { r with checked := true } := by
    rw [sampled_ring, if_pos rfl, at_z, Option.map_some]
  rw [samplePresent_eq]
  split
  · exact marked
  · have z : (takeBack r (sampled expires s)).z = s.z := State.z_congr (takeBack_tables r _)
    rw [retain_ring, z, if_pos rfl, takeBack_keeps (r := r) marked rfl, Option.map_some]

/-- The other records, where no miss strands one. -/
theorem samplePresent_ring_other (expires : Nat) (r : PocketRecord)
    (kept : ∀ k : Nat, (takeBack r (sampled expires s)).tracker.ring[k]? = (sampled expires s).tracker.ring[k]?) {k : Nat}
    (other : k ≠ s.z) : (samplePresent r (sampled expires s)).tracker.ring[k]? = s.tracker.ring[k]? := by
  have unmarked : (sampled expires s).tracker.ring[k]? = s.tracker.ring[k]? := by rw [sampled_ring, if_neg other.symm]
  rw [samplePresent_eq]
  split
  · exact unmarked
  · have z : (takeBack r (sampled expires s)).z = s.z := State.z_congr (takeBack_tables r _)
    rw [retain_ring, z, if_neg other.symm, kept, unmarked]

/-- R97: the entry of a FIRING record found present is missed by its outlet. -/
theorem missTaken_samplePresent (expires : Nat) (at_z : s.tracker.ring[s.z]? = some r) (firing : r.phase = .firing)
    (entry : s.entryOutlet r.name = some n) :
    MissTaken s (samplePresent r (sampled expires s)) n (s.outlets[n].queue.eraseP fun e => e.name == r.name) := by
  have apart {k : Nat} {r' : PocketRecord} (at_k : s.tracker.ring[k]? = some r') (decided : r'.phase = .decided) :
      s.z ≠ k := fun same => by
    obtain rfl := Option.some.inj (at_z.symm.trans (same ▸ at_k))
    nomatch firing.symm.trans decided
  have taken := missTaken_takeMiss n (s.outlets[n].queue.eraseP fun e => e.name == r.name) (sampled expires s)
  rw [samplePresent_eq, if_neg (by simp [firing]), takeBack_firing firing,
    missEntryOf_sampled entry]
  have z : (takeMiss n (s.outlets[n].queue.eraseP fun e => e.name == r.name) (sampled expires s)).z = s.z :=
    State.z_congr (by simp [takeMiss, sampled, markChecked, stopCheckTimer])
  refine (taken.congr_left (s := s) rfl rfl rfl (sampled_names expires s) fun k r' at_k decided => ?_).congr_right
    (fun m => ?_) (retain_notice (by decide) ..) fun k r' at_k decided => ?_
  · rw [sampled_ring, if_neg (apart at_k decided), at_k]
  · rw [retain_outlet]
  · rw [retain_ring, z, if_neg (apart at_k decided)]

end

/-- Settles O26: what an outlet holds of the record is taken back, and the record that was not RETAINED is, with its fault. -/
theorem checkSampleFindsPart : Obligations.CheckSampleFindsPart := by
  intro s expires r running lot timer at_z
  refine ⟨_, exec_checkSample running lot timer at_z true, ?_⟩
  rw [if_pos rfl]
  have row := samplePresent_eq r (sampled expires s)
  have tracker : (samplePresent r (sampled expires s)).tracker = { s.tracker with
      ring := (samplePresent r (sampled expires s)).tracker.ring, checkTimer := none } :=
    samplePresent_tracker r (sampled expires s)
  have idle (other : r.phase ≠ .firing) (k : Nat) :
      (takeBack r (sampled expires s)).tracker.ring[k]? = (sampled expires s).tracker.ring[k]? := by
    rw [takeBack_of_not_firing other, releaseIfDecided_tracker]
  refine ⟨?_, samplePresent_record expires at_z, fun other k => samplePresent_ring_other expires r (idle other), ?_,
    fun retained m => ?_, fun phase m => ?_,
    fun n firing entry => ⟨missTaken_samplePresent expires at_z firing entry,
      fun unfaulted k => samplePresent_ring_other expires r fun k => ?_⟩, ?_, ?_, ?_, ?_⟩
  · rw [tracker]
  · rw [row]
    split
    · rfl
    · exact retain_sup (s := s) (takeBack_sup r (sampled expires s)) (takeBack_loadPocket r (sampled expires s)) r _
  · rw [row, if_pos retained, Outlet.released, if_neg (by simp [retained])]
    rfl
  · obtain ⟨notRetained, notFiring⟩ : r.phase ≠ .retained ∧ r.phase ≠ .firing := by simpa using phase
    have fires : (releaseIfDecided r (sampled expires s)).firesAllowed = s.firesAllowed := by
      simp only [State.firesAllowed, releaseIfDecided_sup]
      rfl
    rw [row, if_neg notRetained, takeBack_of_not_firing notFiring, retain_outlet, fires, releaseIfDecided_outlet]
    rfl
  · rw [takeBack_firing firing, missEntryOf_sampled entry]
    exact takeMiss_ring (s := sampled expires s) unfaulted _ k
  · rw [tracker]
  all_goals simp [sampled, markChecked, stopCheckTimer]

end Sys2Proof.Machine

/-! Bookings one after another (R100), and the ring settled from offset 0 to Z with the bookings of its standing records (R130,
R152). -/

namespace Sys2Proof.Machine

section

variable {s t : State}

/-! ### Bookings one after another -/

/-- A booking for each report, in their order, with the pockets that the reports name (R100). -/
def bookAll (reports : List SortReport) (s : State) : State := reports.foldl (fun s r => book r.pocket r s) s

theorem bookAll_append (reports more : List SortReport) (s : State) :
    bookAll (reports ++ more) s = bookAll more (bookAll reports s) := List.foldl_append

theorem bookAll_eq (reports : List SortReport) (s : State) : bookAll reports s
    = { s with
        sup := { s.sup with unaccounted := (bookAll reports s).sup.unaccounted }
        notices := (bookAll reports s).notices
        ltx := (bookAll reports s).ltx } := by
  induction reports generalizing s with
  | nil => rfl
  | cons r reports ih => exact ih (book r.pocket r s)

/-- A booking neither reads nor writes the Tracker and the outlets. -/
theorem bookAll_with (reports : List SortReport) (tracker : Tracker) (outlets : Vector Outlet 16) (s : State) :
    bookAll reports { s with tracker := tracker, outlets := outlets }
      = { bookAll reports s with tracker := tracker, outlets := outlets } := by
  induction reports generalizing s with
  | nil => rfl
  | cons r reports ih => exact ih (book r.pocket r s)

theorem bookAll_withTracker (reports : List SortReport) (tracker : Tracker) (s : State) :
    bookAll reports { s with tracker := tracker } = { bookAll reports s with tracker := tracker } := by
  induction reports generalizing s with
  | nil => rfl
  | cons r reports ih => exact ih (book r.pocket r s)

theorem bookAll_ltx (reports : List SortReport) (s : State) : (bookAll reports s).ltx = s.ltx.offerAll reports := by
  induction reports generalizing s with
  | nil => rfl
  | cons r reports ih => exact ih (book r.pocket r s)

theorem bookAll_tracker (reports : List SortReport) (s : State) : (bookAll reports s).tracker = s.tracker := by
  rw [bookAll_eq]

theorem bookAll_outlets (reports : List SortReport) (s : State) : (bookAll reports s).outlets = s.outlets := by
  rw [bookAll_eq]

theorem bookAll_tables (reports : List SortReport) (s : State) : (bookAll reports s).tables = s.tables := by
  rw [bookAll_eq]

/-- R100, R102: each booking counts a part, up to the largest value. -/
theorem bookAll_unaccounted (reports : List SortReport) (inRange : s.sup.unaccounted ≤ Config.countMax) :
    (bookAll reports s).sup.unaccounted = min (s.sup.unaccounted + reports.length) Config.countMax := by
  induction reports generalizing s with
  | nil => exact (Nat.min_eq_left inRange).symm
  | cons r reports ih =>
    have booked : (book r.pocket r s).sup.unaccounted = min (s.sup.unaccounted + 1) Config.countMax := rfl
    refine (ih (s := book r.pocket r s) (countUp_le _)).trans ?_
    rw [booked, List.length_cons]
    omega

theorem NoticeCell.raised_raised (cell : NoticeCell) (first last : Nat) :
    (cell.raised first).raised last = cell.raised last := by
  cases pending : cell.pending <;> simp [NoticeCell.raised, pending]

theorem book_unaccounted (pocket : Nat) (report : SortReport) (s : State) :
    (book pocket report s).notices[(8 : Fin 11)] = s.notices[(8 : Fin 11)].raised pocket :=
  (books_bookIf true pocket report s).notice rfl

/-- R180: of several bookings the last gives the notice its detail. -/
theorem bookAll_raised (reports : List SortReport) (detail : Nat) (s : State) :
    (bookAll reports s).notices[(8 : Fin 11)].raised detail = s.notices[(8 : Fin 11)].raised detail := by
  induction reports generalizing s with
  | nil => rfl
  | cons r reports ih =>
    refine (ih (book r.pocket r s)).trans ?_
    rw [book_unaccounted, NoticeCell.raised_raised]

theorem raisedFor_bookAll (reports : List SortReport) (s : State) : RaisedFor s (bookAll reports s) reports := by
  refine ⟨fun r last => ?_, fun none => by rw [none]; rfl⟩
  obtain ⟨reports, rfl⟩ := List.getLast?_eq_some_iff.mp last
  rw [bookAll_append]
  exact (book_unaccounted r.pocket r (bookAll reports s)).trans (bookAll_raised reports r.pocket s)

/-! ### The reports of ring records -/

/-- The reports of the standing ones of these records, which stand from ring offset `k` on. -/
def State.standingReports (s : State) (k : Nat) (records : List PocketRecord) : List SortReport :=
  ((records.zipIdx k).filter fun x => x.1.standing).map fun x => s.unaccountedReport x.1 (s.pocketAt x.2)

theorem State.ringReports_eq (s : State) : s.ringReports = s.standingReports 0 s.tracker.ring := rfl

theorem trackerReport_eq (s : State) (r : PocketRecord) (pocket : Nat) :
    s.trackerReport r pocket = s.unaccountedReport r pocket := by
  cases target : r.target <;> simp [State.trackerReport, State.unaccountedReport, target, Config.sweepHops]

theorem State.standingReports_cons (s : State) (k : Nat) (r : PocketRecord) (records : List PocketRecord) :
    s.standingReports k (r :: records) = (if r.standing then [s.trackerReport r (s.pocketAt k)] else [])
      ++ s.standingReports (k + 1) records := by
  rw [trackerReport_eq]
  cases standing : r.standing <;> simp [State.standingReports, List.zipIdx_cons, standing]

theorem State.standingReports_congr (tables : t.tables = s.tables) (loadPocket : t.tracker.loadPocket = s.tracker.loadPocket)
    (k : Nat) (records : List PocketRecord) : t.standingReports k records = s.standingReports k records := by
  have pocket (k : Nat) : t.pocketAt k = s.pocketAt k := State.pocketAt_congr tables loadPocket k
  have sweep : t.sweepOutlet = s.sweepOutlet := State.sweepOutlet_of_active (by rw [tables])
  simp only [State.standingReports, State.unaccountedReport, pocket, sweep]

theorem State.ringReports_congr (tables : t.tables = s.tables) (tracker : t.tracker = s.tracker) :
    t.ringReports = s.ringReports := by
  rw [State.ringReports_eq, tracker, State.standingReports_congr tables (by rw [tracker]), State.ringReports_eq]

theorem State.length_ringReports (s : State) : s.ringReports.length = s.standingCount := by
  have records : s.tracker.ring = s.tracker.ring.zipIdx.map Prod.fst := by rw [List.zipIdx_map_fst]
  rw [State.ringReports, List.length_map, State.standingCount, records, List.filter_map, List.length_map, List.zipIdx_map_fst]
  rfl

/-! ### The ring, offset by offset -/

/-- One ring record is settled: it is booked when it stands, becomes what `after` says, and the outlets what `give` says. -/
def settleRecord (after : PocketRecord → PocketRecord) (give : PocketRecord → Vector Outlet 16 → Vector Outlet 16) (k : Nat)
    (s : State) : State :=
  match s.tracker.ring[k]? with
  | some r =>
    { bookIf r.standing (s.pocketAt k) (s.trackerReport r (s.pocketAt k)) s with
      tracker := { s.tracker with ring := s.tracker.ring.set k (after r) }
      outlets := give r s.outlets }
  | none => s

variable (after : PocketRecord → PocketRecord) (give : PocketRecord → Vector Outlet 16 → Vector Outlet 16)

theorem settleRecord_of_some {k : Nat} {r : PocketRecord} (at_k : s.tracker.ring[k]? = some r) :
    settleRecord after give k s
      = { bookAll (if r.standing then [s.trackerReport r (s.pocketAt k)] else []) s with
          tracker := { s.tracker with ring := s.tracker.ring.set k (after r) }
          outlets := give r s.outlets } := by
  simp only [settleRecord, at_k]
  cases r.standing <;> rfl

/-- The records from an offset on are settled one after the other; their reports follow each other in their order. -/
theorem foldl_settleRecord (records before : List PocketRecord) (s : State) (ring : s.tracker.ring = before ++ records) :
    (List.range' before.length records.length).foldl (fun s k => settleRecord after give k s) s
      = { bookAll (s.standingReports before.length records) s with
          tracker := { s.tracker with ring := before ++ records.map after }
          outlets := records.foldl (fun outlets r => give r outlets) s.outlets } := by
  induction records generalizing before s with
  | nil =>
    have same : s = { s with tracker := { s.tracker with ring := before ++ [] }, outlets := s.outlets } := by rw [← ring]
    exact same
  | cons r records ih =>
    have at_k : s.tracker.ring[before.length]? = some r := by simp [ring]
    have moved : (before ++ r :: records).set before.length (after r) = (before ++ [after r]) ++ records := by simp
    have next : before.length + 1 = (before ++ [after r]).length := by simp
    rw [List.length_cons, List.range'_succ, List.foldl_cons, next, ih (before ++ [after r]) _ (by
      rw [settleRecord_of_some after give at_k, ring, moved])]
    rw [State.standingReports_congr (s := s) (by rw [settleRecord_of_some after give at_k, bookAll_tables])
      (by rw [settleRecord_of_some after give at_k]), settleRecord_of_some after give at_k, bookAll_with,
      State.standingReports_cons, bookAll_append, next]
    simp

/-- The whole ring is settled from offset 0 to Z. -/
theorem settleRing_eq (s : State) :
    (List.range s.tracker.ring.length).foldl (fun s k => settleRecord after give k s) s
      = { bookAll s.ringReports s with
          tracker := { s.tracker with ring := s.tracker.ring.map after }
          outlets := s.tracker.ring.foldl (fun outlets r => give r outlets) s.outlets } := by
  rw [List.range_eq_range']
  exact foldl_settleRecord after give s.tracker.ring [] s rfl

end

end Sys2Proof.Machine

/-! LOT_END (R129, R147, R152): clearance begins with RUN_OUT, or an abandoned run-out settles the ring and begins SETTLE. -/

namespace Sys2Proof.Machine

section

variable {s t : State} {f : InFrame} {rest : List InFrame} {r : PocketRecord}

/-! ### An abandoned run-out (R152) -/

/-- R152: what an abandoned run-out makes of a ring record. -/
def PocketRecord.abandoned (r : PocketRecord) : PocketRecord :=
  if r.standing then r.settle .lost
  else
    match r.phase with
    | .open => r.settle .void
    | .stranded => r.settle .void
    | .retained => r.settle .lost
    | .void => r | .empty => r | .held => r | .decided => r | .firing => r | .gone => r | .lost => r

/-- R59: a standing record that is DECIDED is released by every outlet. -/
def giveBack (r : PocketRecord) (outlets : Vector Outlet 16) : Vector Outlet 16 :=
  if r.standing then Vector.ofFn fun n => outlets[n].released r n else outlets

theorem PocketRecord.abandoned_of_standing (standing : r.standing = true) : r.abandoned = r.settle .lost := if_pos standing

theorem PocketRecord.abandoned_holdsRunOut (r : PocketRecord) : r.abandoned.holdsRunOut = false := by
  unfold PocketRecord.abandoned
  split
  · simp [PocketRecord.holdsRunOut, PocketRecord.standing, PocketRecord.settle, Phase.stands]
  · next idle =>
    cases phase : r.phase <;>
      simp_all [PocketRecord.holdsRunOut, PocketRecord.standing, PocketRecord.settle, Phase.stands]

theorem forget_eq (name : RecordName) (s : State) : forget name s = { s with outlets := (forget name s).outlets } := rfl

theorem release_eq (r : PocketRecord) (s : State) : release r s = { s with outlets := (release r s).outlets } := by
  unfold release
  cases r.target with
  | none => exact forget_eq r.name s
  | some route =>
    dsimp only
    rw [forget_eq]
    rfl

theorem releaseIfDecided_eq (r : PocketRecord) (s : State) :
    releaseIfDecided r s = { s with outlets := Vector.ofFn fun n => s.outlets[n].released r n } := by
  have outlets : (releaseIfDecided r s).outlets = Vector.ofFn fun n : Fin 16 => s.outlets[n].released r n :=
    Vector.ext fun m h => (releaseIfDecided_outlet r s ⟨m, h⟩).trans (by rw [Vector.getElem_ofFn])
  rw [← outlets, releaseIfDecided]
  split
  · exact release_eq r s
  · rfl

/-- The booking of a record does not read the outlets. -/
theorem bookRecord_withOutlets (r : PocketRecord) (pocket : Nat) (outlets : Vector Outlet 16) (s : State) :
    bookRecord r pocket { s with outlets := outlets } = { bookRecord r pocket s with outlets := outlets } := by
  have report : State.trackerReport { s with outlets := outlets } r pocket = s.trackerReport r pocket := by
    simp only [State.trackerReport, State.sweepOutlet_of_active (s := s) (t := { s with outlets := outlets }) rfl]
  rw [bookRecord, report]
  rfl

/-- R152: the run-out settles a record as `settleRecord` does. -/
theorem abandonRecord_eq (k : Nat) (s : State) :
    abandonRecord k s = settleRecord PocketRecord.abandoned giveBack k s := by
  unfold abandonRecord settleRecord
  cases at_k : s.tracker.ring[k]? with
  | none => rfl
  | some r =>
    have changed (f : PocketRecord → PocketRecord) : modRing k f s
        = { s with tracker := { s.tracker with ring := s.tracker.ring.set k (f r) } } := modRing_of_some at_k f
    have unchanged : s = { s with tracker := { s.tracker with ring := s.tracker.ring.set k r } } := by
      obtain ⟨inRing, rfl⟩ := List.getElem?_eq_some_iff.mp at_k
      rw [List.set_getElem_self]
    dsimp only
    cases standing : r.standing with
    | true =>
      rw [if_pos rfl, releaseIfDecided_eq, bookRecord_withOutlets,
        modRing_of_some (s := { bookRecord r (s.pocketAt k) s with outlets := _ }) at_k, r.abandoned_of_standing standing,
        giveBack, if_pos standing]
      rfl
    | false =>
      have kept : giveBack r s.outlets = s.outlets := if_neg (by simp [standing])
      rw [if_neg (by simp), kept, PocketRecord.abandoned, if_neg (by simp [standing])]
      cases phase : r.phase
      case void | empty | held | decided | firing | gone | lost => exact unchanged
      all_goals exact changed _

theorem abandonRunOut_eq (s : State) : abandonRunOut s
    = { bookAll s.ringReports (endSlots s) with
        tracker := { s.tracker with ring := s.tracker.ring.map PocketRecord.abandoned }
        outlets := s.tracker.ring.foldl (fun outlets r => giveBack r outlets) (endSlots s).outlets } := by
  have records : (fun (s : State) (k : Nat) => abandonRecord k s)
      = fun s k => settleRecord PocketRecord.abandoned giveBack k s := funext fun s => funext fun k => abandonRecord_eq k s
  rw [abandonRunOut, records]
  exact (settleRing_eq PocketRecord.abandoned giveBack (endSlots s)).trans
    (by rw [State.ringReports_congr (s := s) rfl rfl]; rfl)

/-! ### The outlets after it -/

/-- A record that is counted and DECIDED. -/
def PocketRecord.countedDecided (r : PocketRecord) : Bool := r.counted && r.phase == .decided

/-- R59: the outlets lose a reservation for each counted DECIDED record of theirs, and forget them all. -/
theorem giveBack_outlet (r : PocketRecord) (outlets : Vector Outlet 16) (n : Fin 16) : (giveBack r outlets)[n]
    = { outlets[n].forgetAll ([r].filter PocketRecord.countedDecided) with
        reserved := outlets[n].reserved - ([r].filter fun r => r.counted && r.decidedFor n).length } := by
  by_cases standing : r.standing = true
  · have counted : r.counted = true := by
      rw [PocketRecord.standing, Bool.and_eq_true] at standing
      exact standing.1
    have released : (giveBack r outlets)[n] = outlets[n].released r n := by simp [giveBack, standing]
    rw [released, Outlet.released]
    by_cases decided : r.phase = .decided
    · by_cases target : r.target.map Route.outlet = some n
      · simp [PocketRecord.countedDecided, PocketRecord.decidedFor, counted, decided, target, Outlet.forgetAll, Outlet.forget]
      · simp [PocketRecord.countedDecided, PocketRecord.decidedFor, counted, decided, target, Outlet.forgetAll, Outlet.forget]
    · simp [PocketRecord.countedDecided, PocketRecord.decidedFor, decided, Outlet.forgetAll]
  · have idle : ¬ (r.counted = true ∧ r.phase = .decided) := fun ⟨counted, decided⟩ => standing (by
      rw [PocketRecord.standing_of_stands (by rw [decided]; rfl), counted])
    have kept : giveBack r outlets = outlets := if_neg standing
    rw [kept]
    by_cases counted : r.counted = true
    · have decided : r.phase ≠ .decided := fun decided => idle ⟨counted, decided⟩
      simp [PocketRecord.countedDecided, PocketRecord.decidedFor, decided, Outlet.forgetAll]
    · simp [PocketRecord.countedDecided, counted, Outlet.forgetAll]

theorem foldl_giveBack_outlet (records : List PocketRecord) (outlets : Vector Outlet 16) (n : Fin 16) :
    (records.foldl (fun outlets r => giveBack r outlets) outlets)[n]
      = { outlets[n].forgetAll (records.filter PocketRecord.countedDecided) with
          reserved := outlets[n].reserved - (records.filter fun r => r.counted && r.decidedFor n).length } := by
  induction records generalizing outlets with
  | nil => rfl
  | cons r records ih =>
    have cons (p : PocketRecord → Bool) : (r :: records).filter p = [r].filter p ++ records.filter p := by
      rw [← List.filter_append]
      rfl
    rw [List.foldl_cons, ih, giveBack_outlet, cons, cons, Outlet.forgetAll_append, Outlet.forgetAll_reserved,
      List.length_append, Nat.sub_sub]

/-- An outlet whose slot has ended has no slot to forget a record from. -/
theorem Outlet.forgetAll_free (records : List PocketRecord) (o : Outlet) :
    { o with slot := .free }.forgetAll records = { o.forgetAll records with slot := .free } := by
  induction records generalizing o with
  | nil => rfl
  | cons r records ih =>
    have ended : { o with slot := .free }.forget r.name = { o.forget r.name with slot := .free } := by
      simp [Outlet.forget]
    rw [Outlet.forgetAll, List.foldl_cons, ended]
    exact ih (o.forget r.name)

/-! ### The record after it, by its phase -/

theorem PocketRecord.standing_of_counted (counted : r.counted = true)
    (phase : r.phase ∈ [Phase.held, .decided, .stranded, .retained]) : r.standing = true := by
  have stands : r.phase.stands = true := by
    simp only [List.mem_cons, List.not_mem_nil, or_false] at phase
    rcases phase with phase | phase | phase | phase <;> rw [phase] <;> rfl
  rw [PocketRecord.standing_of_stands stands, counted]

theorem PocketRecord.abandoned_booked (counted : r.counted = true)
    (phase : r.phase ∈ [Phase.held, .decided, .stranded, .retained]) :
    r.abandoned = { r with phase := .lost, target := none } :=
  r.abandoned_of_standing (PocketRecord.standing_of_counted counted phase)

theorem PocketRecord.abandoned_empty (row : r.phase = .open ∨ r.counted = false ∧ r.phase = .stranded) :
    r.abandoned = { r with phase := .void, target := none } := by
  rcases row with phase | ⟨uncounted, phase⟩
  · simp [PocketRecord.abandoned, PocketRecord.standing, phase, Phase.stands, PocketRecord.settle]
  · simp [PocketRecord.abandoned, PocketRecord.standing, phase, uncounted, PocketRecord.settle]

theorem PocketRecord.abandoned_lost (uncounted : r.counted = false) (phase : r.phase = .retained) :
    r.abandoned = { r with phase := .lost, target := none } := by
  simp [PocketRecord.abandoned, PocketRecord.standing, phase, uncounted, PocketRecord.settle]

theorem PocketRecord.abandoned_kept (row : r.phase ∈ [Phase.void, .empty, .firing, .gone, .lost] ∨
    r.counted = false ∧ r.phase ∈ [Phase.held, .decided]) : r.abandoned = r := by
  simp only [List.mem_cons, List.not_mem_nil, or_false] at row
  rcases row with (phase | phase | phase | phase | phase) | ⟨uncounted, phase | phase⟩
  case inr.inl | inr.inr => simp [PocketRecord.abandoned, PocketRecord.standing, phase, uncounted]
  all_goals simp [PocketRecord.abandoned, PocketRecord.standing, phase, Phase.stands]

/-! ### The request -/

theorem kind_of_lotEnd {kind : Byte} (h : RequestKind.ofByte kind = some .lotEnd) : kind = 0x31 := by
  unfold RequestKind.ofByte at h
  split at h
  case h_10 code => exact BitVec.eq_of_toNat_eq code
  all_goals nomatch h

theorem exec_lotEnd (serves : Serves s .lotEnd f rest) :
    exec .lotEnd s = .next (finishLine (serveLotEnd f (setInbound rest s))) :=
  serveRow_of_serves serves serveLotEnd

theorem State.lotEndTaken_iff (s : State) : s.lotEndTaken = true ↔
    s.sup.engine = .sorting ∨ s.sup.engine = .halted ∧ s.sup.returnState = some .sorting := by
  unfold State.lotEndTaken
  cases s.sup.engine <;> simp

/-- R129, R147: the Supervisor's record as clearance begins. -/
theorem beginClearance_eq (taken : s.lotEndTaken = true) (stage : Stage) (kind : RunKind) : beginClearance stage kind s
    = { s with sup := { s.sup with
        engine := if s.sup.engine = .sorting then .clearing else .halted
        returnState := if s.sup.engine = .sorting then none else some .clearing
        clearance := some { stage := stage, kind := kind, count := 0 } } } := by
  rcases s.lotEndTaken_iff.mp taken with sorting | ⟨halted, _⟩
  · simp [beginClearance, sorting]
  · simp [beginClearance, halted]

section

variable (empty : f.payload = [])

include empty

theorem serveLotEnd_refused (refused : s.lotEndTaken = false) : serveLotEnd f s = reply f .refusedState [] s := by
  simp [serveLotEnd, empty, refused]

theorem serveLotEnd_runOut (taken : s.lotEndTaken = true) (option : s.lotEntry.any LotEntry.abandon = false) :
    serveLotEnd f s = advanceClearance (reply f .done [0] (beginClearance .runOut .ran s)) := by
  simp [serveLotEnd, empty, taken, option]
  rfl

theorem serveLotEnd_abandon (taken : s.lotEndTaken = true) (option : s.lotEntry.any LotEntry.abandon = true) :
    serveLotEnd f s
      = advanceClearance (reply f .done [1] (abandonRunOut (beginClearance .settle .abandoned s))) := by
  simp [serveLotEnd, empty, taken, option]
  rfl

end

end

/-- R152: the state after an abandoned run-out, block by block. -/
theorem abandonRunOut_outlet (s : State) (n : Fin 16) : (abandonRunOut s).outlets[n]
    = { s.outlets[n].forgetAll s.countedDecided with
        slot := .free
        reserved := s.outlets[n].reserved - (s.tracker.ring.filter fun r => r.counted && r.decidedFor n).length } := by
  have ended : (endSlots s).outlets[n] = { s.outlets[n] with slot := .free } := mapOutlets_get ..
  rw [abandonRunOut_eq]
  refine (foldl_giveBack_outlet s.tracker.ring (endSlots s).outlets n).trans ?_
  rw [ended, Outlet.forgetAll_free]
  rfl

theorem abandonRunOut_tracker (s : State) :
    (abandonRunOut s).tracker = { s.tracker with ring := s.tracker.ring.map PocketRecord.abandoned } := by
  rw [abandonRunOut_eq]

theorem abandonRunOut_sup (s : State) :
    (abandonRunOut s).sup = { s.sup with unaccounted := (abandonRunOut s).sup.unaccounted } := by
  rw [abandonRunOut_eq, bookAll_eq]
  rfl

theorem abandonRunOut_unaccounted {s : State} (inRange : s.sup.unaccounted ≤ Config.countMax) :
    (abandonRunOut s).sup.unaccounted = min (s.sup.unaccounted + s.ringReports.length) Config.countMax := by
  rw [abandonRunOut_eq]
  dsimp only
  exact bookAll_unaccounted (s := endSlots s) s.ringReports inRange

theorem abandonRunOut_ltx (s : State) : (abandonRunOut s).ltx = s.ltx.offerAll s.ringReports := by
  rw [abandonRunOut_eq]
  dsimp only
  exact bookAll_ltx s.ringReports (endSlots s)

theorem raisedFor_abandonRunOut (s : State) : RaisedFor s (abandonRunOut s) s.ringReports := by
  rw [abandonRunOut_eq]
  exact raisedFor_bookAll s.ringReports (endSlots s)

/-- Settles O49: the request is taken or refused by the state, and the abandon option chooses between the two beginnings; the
abandoned ring is settled record by record. -/
theorem lotEndBeginsClearance : Obligations.LotEndBeginsClearance := by
  intro s f rest serves payload
  have answered := reply_eq_answer (kind_of_lotEnd serves.isKind)
  have taken : (setInbound rest s).lotEndTaken = true ↔
      s.sup.engine = .sorting ∨ s.sup.engine = .halted ∧ s.sup.returnState = some .sorting :=
    (setInbound rest s).lotEndTaken_iff
  rw [exec_lotEnd serves]
  refine ⟨fun takes option => ?_, fun takes option => ?_, fun refuses => ?_⟩
  · rw [serveLotEnd_runOut payload (taken.mpr takes) option, beginClearance_eq (taken.mpr takes), answered]
    rfl
  · have begun := beginClearance_eq (taken.mpr takes) .settle .abandoned
    have reports : (beginClearance .settle .abandoned (setInbound rest s)).ringReports = s.ringReports :=
      State.ringReports_congr (by rw [begun]; rfl) (by rw [begun]; rfl)
    have outlet := abandonRunOut_outlet (beginClearance .settle .abandoned (setInbound rest s))
    have tracker := abandonRunOut_tracker (beginClearance .settle .abandoned (setInbound rest s))
    have sup := abandonRunOut_sup (beginClearance .settle .abandoned (setInbound rest s))
    have unaccounted := abandonRunOut_unaccounted (s := beginClearance .settle .abandoned (setInbound rest s))
    have ltx := abandonRunOut_ltx (beginClearance .settle .abandoned (setInbound rest s))
    have raised := raisedFor_abandonRunOut (beginClearance .settle .abandoned (setInbound rest s))
    rw [reports] at unaccounted ltx raised
    rw [serveLotEnd_abandon payload (taken.mpr takes) option, answered]
    refine ⟨_, rfl, ?_⟩
    generalize abandonRunOut (beginClearance .settle .abandoned (setInbound rest s)) = u at *
    rw [begun] at outlet tracker sup unaccounted ltx raised
    have tracker : u.tracker = { s.tracker with ring := s.tracker.ring.map PocketRecord.abandoned } := tracker
    have record {k : Nat} {r : PocketRecord} (at_k : s.tracker.ring[k]? = some r) :
        u.tracker.ring[k]? = some r.abandoned := by
      rw [tracker]
      exact (List.getElem?_map ..).trans (congrArg _ at_k)
    refine ⟨?_, sup, unaccounted, fun k r at_k => ⟨fun counted phase => ?_, fun row => ?_, fun uncounted phase => ?_,
      fun row => ?_⟩, ?_, ?_, outlet, raised, ?_⟩
    · have settled : ∀ r ∈ u.tracker.ring, r.holdsRunOut = false := by
        rw [tracker]
        intro r hr
        obtain ⟨before, _, rfl⟩ := List.mem_map.mp hr
        exact before.abandoned_holdsRunOut
      simpa [State.runOutComplete, answer] using settled
    · exact (record at_k).trans (congrArg some (PocketRecord.abandoned_booked counted phase))
    · exact (record at_k).trans (congrArg some (PocketRecord.abandoned_empty row))
    · exact (record at_k).trans (congrArg some (PocketRecord.abandoned_lost uncounted phase))
    · exact (record at_k).trans (congrArg some (PocketRecord.abandoned_kept row))
    · simp [answer, tracker]
    · simp [answer, tracker]
    · rw [answer, ltx]
      rfl
  · rw [serveLotEnd_refused payload (by simpa using mt taken.mp refuses), answered]

end Sys2Proof.Machine

/-! LOT_ABORT (R105, R130, R131): the standing records and then the counted entries are booked, and the lot closes. -/

namespace Sys2Proof.Machine

section

variable {s t : State} {n : Fin 16} {e : Entry} {name : RecordName}

/-! ### The ring (R130 step 2) -/

/-- R130: the abort settles a record as `settleRecord` does. -/
theorem abortRecord_eq (k : Nat) (s : State) :
    abortRecord k s = settleRecord PocketRecord.aborted (fun _ outlets => outlets) k s := by
  unfold abortRecord settleRecord
  cases at_k : s.tracker.ring[k]? with
  | none => rfl
  | some r =>
    dsimp only
    cases standing : r.standing with
    | true =>
      rw [if_pos rfl, modRing_of_some (r := r) (by rw [bookRecord_tracker]; exact at_k), PocketRecord.aborted, if_pos standing]
      rfl
    | false =>
      obtain ⟨inRing, rfl⟩ := List.getElem?_eq_some_iff.mp at_k
      rw [if_neg (by simp), PocketRecord.aborted, if_neg (by simp [standing]), List.set_getElem_self]
      rfl

theorem abortRing_eq (s : State) : abortRing s
    = { bookAll s.ringReports s with
        tracker := { s.tracker with ring := s.tracker.ring.map PocketRecord.aborted } } := by
  have records : (fun (s : State) (k : Nat) => abortRecord k s)
      = fun s k => settleRecord PocketRecord.aborted (fun _ outlets => outlets) k s :=
    funext fun s => funext fun k => abortRecord_eq k s
  have outlets (records : List PocketRecord) : records.foldl (fun outlets _ => outlets) s.outlets = s.outlets := by
    induction records with
    | nil => rfl
    | cons r records ih => exact ih
  rw [abortRing, records, settleRing_eq, outlets, bookAll_eq]

/-! ### The place of a FIRING record -/

/-- A name's place depends on which records are FIRING under that name. -/
theorem firingPlace_of_marks (ring : t.tracker.ring.map (isFiring name) = s.tracker.ring.map (isFiring name))
    (stack : t.tracker.stack.map (isFiring name) = s.tracker.stack.map (isFiring name)) :
    t.firingPlace name = s.firingPlace name := by
  have found (records : List PocketRecord) : records.findIdx? (isFiring name) = (records.map (isFiring name)).findIdx? id := by
    rw [List.findIdx?_map]
    rfl
  simp only [State.firingPlace, found, ring, stack]

theorem isFiring_aborted (name : RecordName) (r : PocketRecord) : isFiring name r.aborted = isFiring name r := by
  unfold PocketRecord.aborted
  split
  · next standing =>
    have notFiring : r.phase ≠ .firing := fun firing => by
      rw [PocketRecord.standing_eq_false (by rw [firing]; rfl)] at standing
      nomatch standing
    rw [isFiring_of_ne notFiring, isFiring_of_ne (by simp [PocketRecord.settle])]
  · rfl

/-- A standing record is not FIRING, so the abort of the ring moves no FIRING record. -/
theorem firingPlace_abortRing (name : RecordName) (s : State) : (abortRing s).firingPlace name = s.firingPlace name := by
  rw [abortRing_eq]
  refine firingPlace_of_marks ?_ rfl
  rw [List.map_map]
  exact List.map_congr_left fun r _ => isFiring_aborted name r

/-- A record that is FIRING under one name is changed; no other name's records are. -/
theorem map_isFiring_modify {other : RecordName} {records : List PocketRecord} {k : Nat}
    (found : records.findIdx? (isFiring name) = some k) (differs : other ≠ name) :
    (records.modify k (.settle .lost)).map (isFiring other) = records.map (isFiring other) := by
  obtain ⟨inRange, firing, _⟩ := List.findIdx?_eq_some_iff_getElem.mp found
  obtain ⟨named, _⟩ : records[k].name = name ∧ records[k].phase = .firing := by simpa [isFiring] using firing
  refine List.ext_getElem? fun j => ?_
  rw [List.getElem?_map, List.getElem?_map, List.getElem?_modify]
  split
  · next same =>
    subst same
    have before : isFiring other records[k] = false := by simp [isFiring, named, differs.symm]
    have after : isFiring other (records[k].settle .lost) = false := isFiring_of_ne (by simp [PocketRecord.settle]) other
    rw [List.getElem?_eq_getElem inRange]
    exact congrArg some (after.trans before.symm)
  · simp

/-- The place at which a name is found is one at which it is found in the ring, or in the stack. -/
theorem firingPlace_cases (s : State) (name : RecordName) : s.firingPlace name = none ∨
    (∃ k, s.firingPlace name = some (.ring k) ∧ s.tracker.ring.findIdx? (isFiring name) = some k) ∨
    ∃ d, s.firingPlace name = some (.stack d) ∧ s.tracker.stack.findIdx? (isFiring name) = some d := by
  unfold State.firingPlace
  cases s.tracker.ring.findIdx? (isFiring name) with
  | some k => exact .inr (.inl ⟨k, rfl, rfl⟩)
  | none =>
    cases s.tracker.stack.findIdx? (isFiring name) with
    | some d => exact .inr (.inr ⟨d, rfl, rfl⟩)
    | none => exact .inl rfl

/-! ### One entry (R130 step 3) -/

/-- The report with which an entry is booked: the pocket of its record where that is found, else the entry's. -/
def abortReport (s : State) (n : Fin 16) (e : Entry) : SortReport :=
  e.report n .unaccounted (((s.firingPlace e.name).map s.pocketOf).getD e.pocket) none

theorem abortEntry_uncounted (uncounted : e.counted = false) (n : Fin 16) (s : State) : abortEntry n s e = s :=
  if_neg (by simp [uncounted])

theorem abortEntry_counted (counted : e.counted = true) (n : Fin 16) (s : State) : abortEntry n s e
    = { book (abortReport s n e).pocket (abortReport s n e) s with tracker := (abortEntry n s e).tracker } := by
  simp only [abortEntry, counted, if_true, abortReport]
  cases s.firingPlace e.name with
  | none => rfl
  | some p => cases p <;> rfl

theorem abortEntry_eq (n : Fin 16) (e : Entry) (s : State) : abortEntry n s e
    = { bookAll (if e.counted then [abortReport s n e] else []) s with tracker := (abortEntry n s e).tracker } := by
  cases counted : e.counted with
  | true => exact abortEntry_counted counted n s
  | false =>
    rw [abortEntry_uncounted counted]
    rfl

/-- What one entry's booking makes of the Tracker. -/
theorem abortEntry_tracker (n : Fin 16) (e : Entry) (s : State) : (abortEntry n s e).tracker
    = { s.tracker with ring := (abortEntry n s e).tracker.ring, stack := (abortEntry n s e).tracker.stack } := by
  cases counted : e.counted with
  | false => rw [abortEntry_uncounted counted]
  | true =>
    simp only [abortEntry, counted, if_true]
    cases s.firingPlace e.name with
    | none => rfl
    | some p => cases p <;> rfl

/-- The booking of an entry takes its own record out of FIRING and leaves every other name where it was found. -/
theorem firingPlace_abortEntry (differs : name ≠ e.name) (n : Fin 16) (s : State) :
    (abortEntry n s e).firingPlace name = s.firingPlace name := by
  cases counted : e.counted with
  | false => rw [abortEntry_uncounted counted]
  | true =>
    simp only [abortEntry, counted, if_true]
    rcases firingPlace_cases s e.name with missing | ⟨k, place, found⟩ | ⟨d, place, found⟩
    · rw [missing]
      exact State.firingPlace_congr (by simp) name
    · rw [place]
      exact firingPlace_of_marks (map_isFiring_modify found differs) rfl
    · rw [place]
      exact firingPlace_of_marks rfl (map_isFiring_modify found differs)

theorem pocketOf_abortEntry (n : Fin 16) (e : Entry) (s : State) : (abortEntry n s e).pocketOf = s.pocketOf := by
  have tables : (abortEntry n s e).tables = s.tables := by rw [abortEntry_eq, bookAll_eq]
  have loadPocket := congrArg Tracker.loadPocket (abortEntry_tracker n e s)
  funext p
  cases p <;> simp only [State.pocketOf, State.z_congr tables, State.pocketAt_congr tables loadPocket]

/-! ### The entries in their order -/

/-- The entries with their outlets, by outlet number, oldest first. -/
def State.queued (s : State) : List (Fin 16 × Entry) :=
  allOutlets.flatMap fun n => s.outlets[n].queue.map fun e => (n, e)

/-- The entries are booked one after the other. -/
def abortEntries (entries : List (Fin 16 × Entry)) (s : State) : State :=
  entries.foldl (fun s x => abortEntry x.1 s x.2) s

/-- The reports of these entries, each made as its turn comes. -/
def abortReports : List (Fin 16 × Entry) → State → List SortReport
  | [], _ => []
  | x :: entries, s =>
    (if x.2.counted then [abortReport s x.1 x.2] else []) ++ abortReports entries (abortEntry x.1 s x.2)

theorem abortEntries_append (entries more : List (Fin 16 × Entry)) (s : State) :
    abortEntries (entries ++ more) s = abortEntries more (abortEntries entries s) := List.foldl_append

theorem abortEntries_eq (entries : List (Fin 16 × Entry)) (s : State) : abortEntries entries s
    = { bookAll (abortReports entries s) s with tracker := (abortEntries entries s).tracker } := by
  induction entries generalizing s with
  | nil => rfl
  | cons x entries ih =>
    have booked := bookAll_withTracker (abortReports entries (abortEntry x.1 s x.2)) (abortEntry x.1 s x.2).tracker
      (bookAll (if x.2.counted then [abortReport s x.1 x.2] else []) s)
    rw [← abortEntry_eq] at booked
    refine (ih (abortEntry x.1 s x.2)).trans ?_
    rw [booked, abortReports, bookAll_append]
    rfl

theorem abortEntries_tracker (entries : List (Fin 16 × Entry)) (s : State) : (abortEntries entries s).tracker
    = { s.tracker with ring := (abortEntries entries s).tracker.ring, stack := (abortEntries entries s).tracker.stack } := by
  induction entries generalizing s with
  | nil => rfl
  | cons x entries ih =>
    refine (ih (abortEntry x.1 s x.2)).trans ?_
    rw [abortEntry_tracker]
    rfl

theorem abortEntries_outlets (entries : List (Fin 16 × Entry)) (s : State) :
    (abortEntries entries s).outlets = s.outlets := by
  rw [abortEntries_eq, bookAll_eq]

theorem length_abortReports (entries : List (Fin 16 × Entry)) (s : State) :
    (abortReports entries s).length = (entries.filter fun x => x.2.counted).length := by
  induction entries generalizing s with
  | nil => rfl
  | cons x entries ih =>
    rw [abortReports, List.length_append, ih, List.filter_cons]
    cases x.2.counted <;> simp [Nat.add_comm]

/-- With no name twice, each report is the one that the state before all bookings gives. -/
theorem abortReports_of_names (entries : List (Fin 16 × Entry)) (names : (entries.map fun x => x.2.name).Nodup)
    (place : ∀ x ∈ entries, t.firingPlace x.2.name = s.firingPlace x.2.name) (pocket : t.pocketOf = s.pocketOf) :
    abortReports entries t = (entries.filter fun x => x.2.counted).map fun x => abortReport s x.1 x.2 := by
  induction entries generalizing t with
  | nil => rfl
  | cons x entries ih =>
    obtain ⟨fresh, names⟩ := List.nodup_cons.mp names
    have head : abortReport t x.1 x.2 = abortReport s x.1 x.2 := by
      rw [abortReport, place x List.mem_cons_self, pocket, abortReport]
    have tail := ih names (t := abortEntry x.1 t x.2)
      (fun y hy => (firingPlace_abortEntry (fun same => fresh (List.mem_map.mpr ⟨y, hy, same⟩)) x.1 t).trans
        (place y (List.mem_cons_of_mem x hy)))
      ((pocketOf_abortEntry x.1 x.2 t).trans pocket)
    rw [abortReports, tail, head, List.filter_cons]
    cases x.2.counted <;> rfl

theorem abortQueues_eq (s : State) : abortQueues s = abortEntries s.queued s := by
  have fold (outlets : List (Fin 16)) (t : State) (same : t.outlets = s.outlets) :
      outlets.foldl (fun s n => s.outlets[n].queue.foldl (abortEntry n) s) t
        = abortEntries (outlets.flatMap fun n => s.outlets[n].queue.map fun e => (n, e)) t := by
    induction outlets generalizing t with
    | nil => rfl
    | cons n outlets ih =>
      have one : t.outlets[n].queue.foldl (abortEntry n) t = abortEntries (s.outlets[n].queue.map fun e => (n, e)) t := by
        rw [same, abortEntries, List.foldl_map]
      rw [List.foldl_cons, one, ih _ ((abortEntries_outlets ..).trans same), List.flatMap_cons, abortEntries_append]
  exact fold allOutlets s rfl

theorem State.queued_congr (queues : ∀ n : Fin 16, t.outlets[n].queue = s.outlets[n].queue) : t.queued = s.queued := by
  simp only [State.queued, queues]

theorem State.queued_names (s : State) : (s.queued.map fun x => x.2.name) = s.entries.map Entry.name := by
  simp only [State.queued, State.entries, List.map_flatMap, List.map_map]
  rfl

theorem State.entryReports_eq (s : State) :
    s.entryReports = (s.queued.filter fun x => x.2.counted).map fun x => abortReport s x.1 x.2 := by
  simp only [State.entryReports, State.queued, List.filter_flatMap, List.map_flatMap, List.filter_map, List.map_map]
  rfl

/-! ### The whole abort -/

/-- The reports of the counted entries as the abort makes them, the ring having been booked. -/
def State.queueReports (s : State) : List SortReport := abortReports s.queued (abortRing (stopOutlets s))

/-- An outlet after the abort (R130 steps 1 and 4). -/
def Outlet.aborted (o : Outlet) : Outlet := { o with reserved := 0, queue := [], slot := .free, drive := .quiet }

theorem State.abortCount_eq (s : State) : s.abortCount = (s.ringReports ++ s.queueReports).length := by
  have queues : (s.queued.filter fun x => x.2.counted).length
      = (allOutlets.map fun n => (s.outlets[n].queue.filter Entry.counted).length).sum := by
    simp only [State.queued, List.filter_flatMap, List.length_flatMap, List.filter_map, List.length_map]
    rfl
  rw [List.length_append, State.length_ringReports, State.queueReports, length_abortReports, queues]
  rfl

theorem State.length_entryReports (s : State) : s.entryReports.length = s.queueReports.length := by
  rw [State.entryReports_eq, List.length_map, State.queueReports, length_abortReports]

/-- With the names told apart each entry finds its own record, whatever was booked before it. -/
theorem NameLaw.queueReports (law : NameLaw s) : s.queueReports = s.entryReports := by
  have tables : (abortRing (stopOutlets s)).tables = s.tables := by
    rw [abortRing_eq, bookAll_eq]
    rfl
  have loadPocket : (abortRing (stopOutlets s)).tracker.loadPocket = s.tracker.loadPocket := by
    rw [abortRing_eq]
    rfl
  have pocket : (abortRing (stopOutlets s)).pocketOf = s.pocketOf := by
    funext p
    cases p <;> simp only [State.pocketOf, State.z_congr tables, State.pocketAt_congr tables loadPocket]
  rw [State.entryReports_eq]
  exact abortReports_of_names s.queued (s.queued_names ▸ law.entries)
    (fun x _ => firingPlace_abortRing x.2.name (stopOutlets s)) pocket

/-- Both kinds of bookings, the ring's and then the queues', as bookings of the state at the start. -/
theorem abortQueues_abortRing (s : State) : abortQueues (abortRing (stopOutlets s))
    = { bookAll (s.ringReports ++ s.queueReports) s with
        tracker := (abortQueues (abortRing (stopOutlets s))).tracker
        outlets := (stopOutlets s).outlets } := by
  have ring : abortRing (stopOutlets s) = { bookAll s.ringReports s with
      tracker := { s.tracker with ring := s.tracker.ring.map PocketRecord.aborted }
      outlets := (stopOutlets s).outlets } := by
    rw [abortRing_eq, State.ringReports_congr (s := s) rfl rfl]
    exact congrArg (fun u : State => { u with tracker := { s.tracker with ring := s.tracker.ring.map PocketRecord.aborted } })
      (bookAll_with s.ringReports s.tracker (stopOutlets s).outlets s)
  have queued : (abortRing (stopOutlets s)).queued = s.queued :=
    State.queued_congr fun n => by rw [ring]; exact ((stopOutlets_account s).outlets n).queue
  have booked : bookAll s.queueReports (abortRing (stopOutlets s)) = { bookAll s.queueReports (bookAll s.ringReports s) with
      tracker := { s.tracker with ring := s.tracker.ring.map PocketRecord.aborted }
      outlets := (stopOutlets s).outlets } :=
    (congrArg (bookAll s.queueReports) ring).trans (bookAll_with ..)
  rw [abortQueues_eq, queued, bookAll_append]
  exact (abortEntries_eq s.queued (abortRing (stopOutlets s))).trans
    (congrArg (fun u : State => { u with tracker := (abortEntries s.queued (abortRing (stopOutlets s))).tracker }) booked)

theorem abortQueues_tracker (s : State) : ∃ ring stack,
    (abortQueues (abortRing (stopOutlets s))).tracker = { s.tracker with ring := ring, stack := stack } := by
  rw [abortQueues_eq, abortEntries_tracker, abortRing_eq]
  exact ⟨_, _, rfl⟩

theorem abortClose_eq (s : State) : abortClose s = { s with
    tracker := { s.tracker with ring := [], stack := [], checkTimer := none }
    sup := { s.sup with engine := .ready, returnState := none, clearance := none, faults := .empty } } := rfl

/-- R130 step 4: the queues and reservations of outlets that step 1 has stopped are dropped. -/
theorem mapOutlets_of_stopped (outlets : t.outlets = (stopOutlets s).outlets) :
    mapOutlets (fun _ o => { o with queue := [], reserved := 0 }) t = { t with outlets := s.outlets.map Outlet.aborted } := by
  have dropped : (Vector.ofFn fun n : Fin 16 => { t.outlets[n] with queue := [], reserved := 0 })
      = s.outlets.map Outlet.aborted := by
    rw [outlets]
    exact Vector.ext fun m h => by simp [stopOutlets, Outlet.aborted]
  rw [mapOutlets, dropped]

/-- R130, R131: every booking is made, and the lot is closed. -/
theorem abort_eq (s : State) : abortClose (abortBookings s)
    = { bookAll (s.ringReports ++ s.queueReports) s with
        tracker := { s.tracker with ring := [], stack := [], checkTimer := none }
        outlets := s.outlets.map Outlet.aborted
        sup := { s.sup with
          engine := .ready
          returnState := none
          clearance := none
          faults := .empty
          unaccounted := (bookAll (s.ringReports ++ s.queueReports) s).sup.unaccounted } } := by
  have booked := abortQueues_abortRing s
  obtain ⟨ring, stack, tracker⟩ := abortQueues_tracker s
  have sup : (bookAll (s.ringReports ++ s.queueReports) s).sup
      = { s.sup with unaccounted := (bookAll (s.ringReports ++ s.queueReports) s).sup.unaccounted } :=
    congrArg State.sup (bookAll_eq _ s)
  rw [abortBookings, mapOutlets_of_stopped (by rw [booked]), abortClose_eq, booked, tracker]
  generalize bookAll (s.ringReports ++ s.queueReports) s = u at sup
  dsimp only
  rw [sup]

/-! ### The request -/

theorem kind_of_lotAbort {kind : Byte} (h : RequestKind.ofByte kind = some .lotAbort) : kind = 0x32 := by
  unfold RequestKind.ofByte at h
  split at h
  case h_11 code => exact BitVec.eq_of_toNat_eq code
  all_goals nomatch h

theorem exec_lotAbort {f : InFrame} {rest : List InFrame} (serves : Serves s .lotAbort f rest) :
    exec .lotAbort s = .next (finishLine (serveLotAbort f (setInbound rest s))) :=
  serveRow_of_serves serves serveLotAbort

theorem reply_lotSummary (f : InFrame) (result : ResultCode) (bytes : List Byte) (kind : EndKind) (s : State) :
    (reply f result bytes s).lotSummary kind = s.lotSummary kind := rfl

theorem serveLotAbort_open {f : InFrame} (empty : f.payload = []) (lot : s.lotOpen = true) : serveLotAbort f s
    = enqueue 0 (.lotSummary ((abortClose (abortBookings s)).lotSummary .aborted))
        (reply f .done (bytesOf 4 s.abortCount) (abortClose (abortBookings s))) := by
  rw [serveLotAbort, if_neg (by simp [empty]), if_neg (by simp [lot])]
  dsimp only
  rw [reply_lotSummary]

end

section

variable {s : State}

theorem abort_sup (s : State) : (abortClose (abortBookings s)).sup
    = { s.sup with
        engine := .ready
        returnState := none
        clearance := none
        faults := .empty
        unaccounted := (abortClose (abortBookings s)).sup.unaccounted } := by
  rw [abort_eq]

theorem abort_unaccounted (inRange : s.sup.unaccounted ≤ Config.countMax) :
    (abortClose (abortBookings s)).sup.unaccounted = min (s.sup.unaccounted + s.abortCount) Config.countMax := by
  rw [abort_eq, State.abortCount_eq]
  exact bookAll_unaccounted (s.ringReports ++ s.queueReports) inRange

theorem abort_tracker (s : State) : (abortClose (abortBookings s)).tracker
    = { s.tracker with ring := [], stack := [], checkTimer := none } := by
  rw [abort_eq]

theorem abort_outlet (s : State) (n : Fin 16) : (abortClose (abortBookings s)).outlets[n] = s.outlets[n].aborted := by
  rw [abort_eq]
  exact Vector.getElem_map ..

theorem abort_ltx (s : State) :
    (abortClose (abortBookings s)).ltx = s.ltx.offerAll (s.ringReports ++ s.queueReports) := by
  rw [abort_eq]
  exact bookAll_ltx ..

theorem raisedFor_abort (s : State) : RaisedFor s (abortClose (abortBookings s)) (s.ringReports ++ s.queueReports) := by
  rw [abort_eq]
  exact raisedFor_bookAll ..

end

/-- Settles O50: the bookings of the ring and of the queues, in their order, are all that reaches the counts and the line
before the lot is closed and the reply and the summary follow. -/
theorem lotAbortClosesLot : Obligations.LotAbortClosesLot := by
  intro s f rest serves payload lot
  have lot' : (setInbound rest s).lotOpen = true := (State.lotOpen_congr (by simp)).trans lot
  have count : s.abortCount = (s.ringReports ++ s.entryReports).length := by
    rw [State.abortCount_eq, List.length_append, List.length_append, State.length_entryReports]
  have ringReports : (setInbound rest s).ringReports = s.ringReports := State.ringReports_congr (by simp) (by simp)
  have queueReports (law : NameLaw s) : (setInbound rest s).queueReports = s.entryReports :=
    NameLaw.queueReports (s := setInbound rest s) { law with }
  have sup := abort_sup (setInbound rest s)
  have unaccounted := abort_unaccounted (s := setInbound rest s)
  have tracker := abort_tracker (setInbound rest s)
  have outlet := abort_outlet (setInbound rest s)
  have ltx := abort_ltx (setInbound rest s)
  have raised := raisedFor_abort (setInbound rest s)
  rw [ringReports] at ltx raised
  rw [exec_lotAbort serves, serveLotAbort_open payload lot', reply_eq_answer (kind_of_lotAbort serves.isKind)]
  refine ⟨_, rfl, ?_⟩
  generalize abortClose (abortBookings (setInbound rest s)) = v at *
  refine ⟨congrArg Supervisor.engine sup, congrArg Supervisor.returnState sup, congrArg Supervisor.clearance sup,
    congrArg Supervisor.faults sup, congrArg Tracker.ring tracker, congrArg Tracker.stack tracker,
    congrArg Tracker.checkTimer tracker, (congrArg Tracker.loadPocket tracker :), (congrArg Tracker.nextSeq tracker :),
    outlet, unaccounted, (congrArg Supervisor.present sup :), (congrArg Supervisor.lotId sup :), count, v.ltx, ?_,
    fun law => ?_⟩
  · rw [enqueue, answer]
    simp only [List.append_assoc, List.singleton_append]
    rfl
  · rw [← queueReports law]
    exact ⟨ltx, raised⟩

end Sys2Proof.Machine

/-! Three requests to the Table Store: TABLE_WRITE (R116, R117), TABLE_READ (R124) and TABLE_DISCARD (R118). -/

namespace Sys2Proof.Machine

section

variable {s : State} {f : InFrame} {rest : List InFrame}

/-! ### The KIND of a served frame -/

/-- The KIND byte of a request (R161). -/
def RequestKind.byte : RequestKind → Byte
  | .meas => 0x01
  | .statusQuery => 0x10
  | .pocketQuery => 0x11
  | .outletQuery => 0x12
  | .tableWrite => 0x20
  | .tableRead => 0x21
  | .tableDiscard => 0x22
  | .tableCommit => 0x23
  | .lotStart => 0x30
  | .lotEnd => 0x31
  | .lotAbort => 0x32
  | .outletReset => 0x33
  | .clearFault => 0x34
  | .noticeAck => 0x40
  | .noticeMask => 0x41
  | .nodeAssign => 0x42

theorem RequestKind.byte_of_ofByte {b : Byte} {kind : RequestKind} (h : RequestKind.ofByte b = some kind) :
    b = kind.byte := by
  unfold RequestKind.ofByte at h
  split at h <;> cases h <;> exact BitVec.eq_of_toNat_eq ‹_›

theorem Serves.reply_eq_answer {kind : RequestKind} (h : Serves s kind f rest) (result : ResultCode) (bytes : List Byte)
    (t : State) : reply f result bytes t = answer f kind.byte result bytes t :=
  Machine.reply_eq_answer (RequestKind.byte_of_ofByte h.isKind) result bytes t

/-- A field of one byte is that byte's number (R161). -/
theorem field_one {payload : List Byte} {k : Nat} {b : Byte} (at_k : payload[k]? = some b) :
    field payload k 1 = b.toNat := by
  obtain ⟨inside, rfl⟩ := List.getElem?_eq_some_iff.mp at_k
  rw [field, slice, List.drop_eq_getElem_cons inside]
  exact Nat.zero_add _

/-! ### TABLE_WRITE (R116, R117) -/

theorem exec_tableWrite (h : Serves s .tableWrite f rest) :
    exec .tableWrite s = .next (finishLine (serveTableWrite f (setInbound rest s))) :=
  serveRow_of_serves h serveTableWrite

section

variable {kind : TableKind} {b index : Byte} {fields : List Byte} (known : TableKind.ofByte b = some kind)
  (payload : f.payload = b :: index :: fields)

include known payload

theorem serveTableWrite_badLength (length : fields.length + 2 ≠ kind.writeLen) :
    serveTableWrite f s = reply f .badLength [] s := by
  simp [serveTableWrite, payload, known, length]

theorem serveTableWrite_badIndex (length : fields.length + 2 = kind.writeLen) (above : kind.entries ≤ index.toNat) :
    serveTableWrite f s = reply f .badIndex [] s := by
  simp [serveTableWrite, payload, known, length, field_one (k := 1), above]

theorem serveTableWrite_badField {number : Nat} (length : fields.length + 2 = kind.writeLen)
    (inside : index.toNat < kind.entries) (fails : firstBad 3 (kind.rangeTests fields) = some number) :
    serveTableWrite f s = reply f .badField (bytesOf 1 number) s := by
  simp [serveTableWrite, payload, known, length, field_one (k := 1), inside, fails, badField]

theorem serveTableWrite_stored (length : fields.length + 2 = kind.writeLen) (inside : index.toNat < kind.entries)
    (passes : firstBad 3 (kind.rangeTests fields) = none) :
    serveTableWrite f s = reply f .done (b :: index :: bytesOf 2 (crcFold s.tables.check f.payload).toNat)
      (setStaging (s.tables.staged.write kind index.toNat fields) (crcFold s.tables.check f.payload) s) := by
  simp [serveTableWrite, storeEntry, payload, known, length, field_one (k := 1), inside, passes, slice]

end

/-! ### TABLE_READ (R124) -/

theorem exec_tableRead (h : Serves s .tableRead f rest) :
    exec .tableRead s = .next (finishLine (serveTableRead f (setInbound rest s))) :=
  serveRow_of_serves h serveTableRead

section

variable {set : TableSet} {kind : TableKind} {sel b index : Byte} {fields : List Byte}
  (payload : f.payload = [sel, b, index])

include payload

theorem readPayload_absent (absent : set.read kind index.toNat = none) (check : List Byte) :
    readPayload f set kind check = [sel, b, index, 0] ++ check := by
  have named : field f.payload 2 1 = index.toNat := field_one (by simp [payload])
  rw [readPayload, named, absent, payload]
  rfl

theorem readPayload_present (present : set.read kind index.toNat = some fields) (check : List Byte) :
    readPayload f set kind check = [sel, b, index, 1] ++ fields ++ check := by
  have named : field f.payload 2 1 = index.toNat := field_one (by simp [payload])
  rw [readPayload, named, present, payload]
  rfl

variable (known : TableKind.ofByte b = some kind) (inside : index.toNat < kind.entries)

include known inside

theorem serveTableRead_inactive (selected : sel = 0) (inactive : s.tables.active = none) :
    serveTableRead f s = reply f .refusedState [] s := by
  simp [serveTableRead, payload, known, inside, field_one (k := 0), field_one (k := 2), selected, inactive]

theorem serveTableRead_active (selected : sel = 0) (active : s.tables.active = some set) :
    serveTableRead f s = reply f .done (readPayload f set kind []) s := by
  simp [serveTableRead, payload, known, inside, field_one (k := 0), field_one (k := 2), selected, active]

theorem serveTableRead_staged (selected : sel = 1) :
    serveTableRead f s = reply f .done (readPayload f s.tables.staged kind (bytesOf 2 s.tables.check.toNat)) s := by
  simp [serveTableRead, payload, known, inside, field_one (k := 0), field_one (k := 2), selected]

end

/-! ### TABLE_DISCARD (R118) -/

theorem exec_tableDiscard (h : Serves s .tableDiscard f rest) :
    exec .tableDiscard s = .next (finishLine (serveTableDiscard f (setInbound rest s))) :=
  serveRow_of_serves h serveTableDiscard

theorem serveTableDiscard_done (empty : f.payload = []) :
    serveTableDiscard f s = reply f .done [0xFF, 0xFF] (discardStaging s) := by
  simp [serveTableDiscard, empty, bytesOf, Config.crcStart]

theorem serveTableDiscard_badLength (payload : f.payload ≠ []) : serveTableDiscard f s = reply f .badLength [] s := by
  simp [serveTableDiscard, payload]

end

/-- Settles O44: the tests of R116 in their order, each with its answer. -/
theorem tableWriteStoresOrRefuses : Obligations.TableWriteStoresOrRefuses := by
  intro s f rest kind b fields index serves known payload
  have tables : (setInbound rest s).tables = s.tables := by simp
  have answered := serves.reply_eq_answer
  rw [exec_tableWrite serves]
  refine ⟨fun length inside passes => ?_, fun result bytes refused => ?_⟩
  · rw [serveTableWrite_stored known payload length inside passes, answered, tables, setStaging, tables]
    rfl
  · rcases refused with ⟨length, rfl, rfl⟩ | ⟨length, above, rfl, rfl⟩ | ⟨number, length, inside, fails, rfl, rfl⟩
    · rw [serveTableWrite_badLength known payload length, answered]
      rfl
    · rw [serveTableWrite_badIndex known payload length above, answered]
      rfl
    · rw [serveTableWrite_badField known payload length inside fails, answered]
      rfl

/-- Settles O45: the set that the selector names, and its entry present or absent. -/
theorem tableReadIsAnswered : Obligations.TableReadIsAnswered := by
  intro s f rest kind sel b index serves payload known inside result bytes cases
  have tables : (setInbound rest s).tables = s.tables := by simp
  have answered := serves.reply_eq_answer
  rw [exec_tableRead serves]
  rcases cases with ⟨selected, inactive, rfl, rfl⟩ | ⟨set, check, rfl, selected, entry⟩
  · rw [serveTableRead_inactive payload known inside selected (tables ▸ inactive), answered]
    rfl
  · have read : readPayload f set kind check = bytes := by
      rcases entry with ⟨absent, rfl⟩ | ⟨fields, present, rfl⟩
      · exact readPayload_absent payload absent check
      · exact readPayload_present payload present check
    rcases selected with ⟨selected, active, rfl⟩ | ⟨selected, rfl, rfl⟩
    · rw [serveTableRead_active payload known inside selected (tables ▸ active), read, answered]
      rfl
    · rw [serveTableRead_staged payload known inside selected, tables, read, answered]
      rfl

/-- Settles O46: with an empty payload the staging is discarded, and with any other nothing is. -/
theorem tableDiscardRestoresStaging : Obligations.TableDiscardRestoresStaging := by
  intro s f rest serves
  have tables : (setInbound rest s).tables = s.tables := by simp
  have answered := serves.reply_eq_answer
  rw [exec_tableDiscard serves]
  refine ⟨fun empty => ?_, fun payload => ?_⟩
  · rw [serveTableDiscard_done empty, answered, discardStaging, setStaging, tables]
    rfl
  · rw [serveTableDiscard_badLength payload, answered]
    rfl

end Sys2Proof.Machine

/-! The Line Receiver's characters and rejects (R123, R163, R164): what a good character adds to a held frame, and what a
reject leaves of its bytes. -/

namespace Sys2Proof.Machine

section

variable {s : State} {frame : List Byte} {time : Nat}

/-! ### Laws along a reception -/

/-- What every good character keeps, a search keeps. -/
theorem takeChars_keeps {Q : State → Prop} (char : ∀ (b : Byte) {s : State}, Q s → Q (takeChar b s).1) (fuel : Nat) :
    ∀ (bytes : List Byte) {s : State}, Q s → Q (takeChars fuel bytes s) := by
  induction fuel with
  | zero => exact fun _ _ h => h
  | succ fuel ih =>
    intro bytes s h
    cases bytes with
    | nil => exact h
    | cons b rest =>
      have taken := char b h
      unfold takeChars
      split
      · next t bytes step => exact ih (bytes ++ rest) (by rwa [step] at taken)
      · next t step => rwa [step] at taken

/-- No character begins or ends a hold in reset (R142). -/
theorem takeChar_held (b : Byte) (s : State) : (takeChar b s).1.held = s.held := by
  unfold takeChar
  split
  · split <;> simp
  · unfold extendFrame completeFrame acceptKept rejectHeld
    (repeat' split) <;> simp

theorem onGapTimer_keepsHeld (s : State) : (onGapTimer s).held = s.held := by
  have searched (bytes : List Byte) (t : State) : (search bytes t).held = t.held :=
    takeChars_keeps (Q := fun u => u.held = t.held) (fun b u h => (takeChar_held b u).trans h) _ bytes rfl
  unfold onGapTimer rejectAndSearch finishReception
  (repeat' split) <;> simp [searched]

/-! ### The commands of RXD in a running engine -/

section

variable (running : s.held = false)

include running

theorem exec_characterReceived (time : Nat) (b : Byte) :
    exec (.characterReceived time b) s = .next (onChar b (charEndsAt time s)) := by
  simp [exec, execCharacterReceived, whenRunning, running]

theorem exec_frameComplete (time : Nat) (b : Byte) :
    exec (.frameComplete time b) s = .next (onChar b (charEndsAt time s)) := by
  simp [exec, execFrameComplete, whenRunning, running]

theorem exec_frameReject (time : Nat) (trouble : LineTrouble) :
    exec (.frameReject time trouble) s = .next (onFrameReject trouble (charEndsAt time s)) := by
  simp [exec, execFrameReject, whenRunning, running]

theorem exec_gapTimer : exec .gapTimer s = .next (onGapTimer s) := by
  simp [exec, execGapTimer, whenRunning, running]

end

/-! ### One character (R163) -/

/-- The search of one new character goes on with the bytes that it leaves to be searched. -/
theorem search_char {b : Byte} {bytes : List Byte} {t : State} (taken : takeChar b s = (t, .again bytes)) :
    search [b] s = takeChars (searchFuel (s.lrx.assembler.held.length + 1) - 1) bytes t := by
  have fuel : searchFuel ([b].length + s.lrx.assembler.held.length)
      = searchFuel (s.lrx.assembler.held.length + 1) - 1 + 1 := by
    rw [List.length_singleton, Nat.add_comm 1, Nat.sub_add_cancel (by unfold searchFuel; nlinarith)]
  rw [search, fuel]
  simp only [takeChars, taken, List.append_nil]

theorem takeChar_sync (hunt : s.lrx.assembler = .hunt) :
    takeChar Config.sync s = (setAssembler (.frame [Config.sync]) s, .again []) := by
  simp [takeChar, hunt]

theorem takeChar_passOver (hunt : s.lrx.assembler = .hunt) {b : Byte} (other : b ≠ Config.sync) :
    takeChar b s = (setAssembler .hunt s, .again []) := by
  rw [setAssembler_self hunt]
  simp [takeChar, hunt, other]

theorem takeChar_frame (at_ : s.lrx.assembler = .frame frame) (b : Byte) :
    takeChar b s = extendFrame (frame ++ [b]) s := by
  simp [takeChar, at_]

/-- The state after a character that ended at `time`, with what it leaves in the assembler: in FRAME the gap timer runs under
the limit in force. -/
def State.received (s : State) (time : Nat) (kept : Assembler) : State :=
  { s with
    now := max s.now time
    lrx := { s.lrx with
      assembler := kept
      gapTimer := if kept = .hunt then none else some (max s.now time + s.link.gapLimit)
      gapEnd := max s.now time + s.link.gapLimit } }

/-- A character in time that only changes the assembler. -/
theorem onChar_of_taken {b : Byte} {kept : Assembler}
    (taken : takeChar b (markChar (advanceTo time s)) = (setAssembler kept (markChar (advanceTo time s)), .again [])) :
    onChar b (advanceTo time s) = finishLine (s.received time kept) := by
  rw [onChar, search_char taken, takeChars_nil]
  cases kept <;> rfl

/-! ### Searches (R164) -/

/-- What a search of bytes from HUNT on leaves, when it finds no whole frame: HUNT without a SYNC, else the bytes from the
first one on. -/
def Leaves (bytes : List Byte) (kept : Assembler) : Prop :=
  (kept = .hunt ∧ Config.sync ∉ bytes) ∨
    ∃ pre post, bytes = pre ++ Config.sync :: post ∧ Config.sync ∉ pre ∧ Incomplete (Config.sync :: post)
      ∧ kept = .frame (Config.sync :: post)

theorem Leaves.of_nil {kept : Assembler} (h : Leaves [] kept) : kept = .hunt := by
  rcases h with ⟨hunt, -⟩ | ⟨pre, post, empty, -⟩
  · exact hunt
  · simp at empty

/-- One step of fuel a byte is enough for a search that finds no whole frame. -/
theorem takeChars_leaves {bytes : List Byte} {kept : Assembler} (hunt : s.lrx.assembler = .hunt)
    (leaves : Leaves bytes kept) {fuel : Nat} (enough : bytes.length ≤ fuel) :
    takeChars fuel bytes s = setAssembler kept s := by
  rcases leaves with ⟨rfl, none⟩ | ⟨pre, post, rfl, none, incomplete, rfl⟩
  · obtain ⟨more, rfl⟩ := Nat.exists_eq_add_of_le enough
    have passed := takeChars_passOver bytes [] more s hunt none
    rw [List.append_nil] at passed
    rw [passed, takeChars_nil, setAssembler_self hunt]
  · rw [List.length_append, List.length_cons] at enough
    obtain ⟨more, rfl⟩ : ∃ more, fuel = pre.length + (more + 1) := ⟨fuel - pre.length - 1, by omega⟩
    rw [takeChars_passOver pre _ _ s hunt none]
    simp only [takeChars, takeChar_sync hunt, List.nil_append]
    rw [takeChars_incomplete post [Config.sync] more _ rfl incomplete (by omega), setAssembler_setAssembler]
    rfl

theorem search_leaves {bytes : List Byte} {kept : Assembler} (hunt : s.lrx.assembler = .hunt)
    (leaves : Leaves bytes kept) : search bytes s = setAssembler kept s :=
  takeChars_leaves hunt leaves (by unfold searchFuel; nlinarith)

/-! ### Rejects (R164) -/

/-- The state after a reject at `now` with the gap in progress ending at `gapEnd`. -/
def State.rejected (s : State) (trouble : LinkTrouble) (now gapEnd : Nat) (kept : Assembler) : State :=
  raiseNotice .linkError trouble.code { s with
    now := now
    lrx := { s.lrx with assembler := kept, gapTimer := if kept = .hunt then none else some gapEnd, gapEnd := gapEnd }
    ltx := { s.ltx with reject := true } }

theorem finishReception_rejectFrame (trouble : LinkTrouble) (kept : Assembler) (s : State) :
    finishReception (setAssembler kept (rejectFrame trouble s))
      = finishLine (s.rejected trouble s.now s.lrx.gapEnd kept) := by
  cases kept <;> rfl

theorem rejectAndSearch_leaves {kept : Assembler} (at_ : s.lrx.assembler = .frame frame) (leaves : Leaves frame.tail kept)
    (trouble : LinkTrouble) : rejectAndSearch trouble s = setAssembler kept (rejectFrame trouble s) := by
  rw [rejectAndSearch, at_]
  exact search_leaves (rejectFrame_assembler trouble s) leaves

/-- A character that completes a rejected frame: the frame's bytes after the SYNC are searched, the character's included. -/
theorem onChar_of_rejected {b : Byte} {trouble : LinkTrouble} {kept : Assembler}
    (at_ : s.lrx.assembler = .frame frame) (leaves : Leaves (frame.tail ++ [b]) kept) (some_ : frame ≠ [])
    (rejects : extendFrame (frame ++ [b]) (markChar s) = rejectHeld trouble (frame ++ [b]) (markChar s)) :
    onChar b s = finishLine (s.rejected trouble s.now (s.now + s.link.gapLimit) kept) := by
  have taken : takeChar b (markChar s) = (rejectFrame trouble (markChar s), .again (frame.tail ++ [b])) := by
    rw [takeChar_frame (s := markChar s) at_, rejects, rejectHeld, List.tail_append_of_ne_nil some_]
  have enough : (frame.tail ++ [b]).length ≤ searchFuel ((markChar s).lrx.assembler.held.length + 1) - 1 := by
    have least : frame.length + 2 ≤ searchFuel (frame.length + 1) := by unfold searchFuel; nlinarith
    rw [markChar_assembler, at_, List.length_append, List.length_tail, List.length_singleton, Assembler.held]
    omega
  rw [onChar, search_char taken, takeChars_leaves (rejectFrame_assembler ..) leaves enough, finishReception_rejectFrame]
  rfl

/-- R161, R164: the fifth byte of a frame gives a LEN above 56. -/
theorem extendFrame_length {len : Byte} (four : frame.length = 4) (above : 56 < len.toNat) (s : State) :
    extendFrame (frame ++ [len]) s = rejectHeld .length (frame ++ [len]) s := by
  have five : (frame ++ [len]).length = 5 := by simp [four]
  have field : field (frame ++ [len]) 4 1 = len.toNat := by
    rw [field_len, if_neg (by omega)]
    simp [← four]
  rw [extendFrame, if_pos ⟨five, field ▸ above⟩]

/-- R161, R164: the CRC bytes of a whole frame differ from the CRC over its bytes. -/
theorem extendFrame_crc {sync dest kind tag : Byte} {payload crc : List Byte} (within : payload.length ≤ 56)
    (two : crc.length = 2)
    (differs : crc ≠ bytesOf 2 (frameCrc (dest :: kind :: tag :: BitVec.ofNat 8 payload.length :: payload)).toNat)
    (s : State) :
    extendFrame (sync :: dest :: kind :: tag :: BitVec.ofNat 8 payload.length :: payload ++ crc) s
      = rejectHeld .crc (sync :: dest :: kind :: tag :: BitVec.ofNat 8 payload.length :: payload ++ crc) s := by
  generalize whole : sync :: dest :: kind :: tag :: BitVec.ofNat 8 payload.length :: payload ++ crc = held
  have length : held.length = 7 + payload.length := by
    simp [← whole, two]
    omega
  have field_len : field held 4 1 = payload.length := by
    rw [field_len, if_neg (by omega), ← whole]
    simp
    omega
  have covered : slice held 1 (4 + payload.length) = dest :: kind :: tag :: BitVec.ofNat 8 payload.length :: payload := by
    simp [← whole, slice, Nat.add_comm 4]
  have sent : field held (5 + payload.length) 2 = field crc 0 2 := by
    simp [← whole, field, slice, Nat.add_comm 5]
  have bad : goodCrc held = false := by
    rw [goodCrc, field_len, covered, sent, decide_eq_false_iff_not, ← payload_eq_check_iff two]
    exact differs
  rw [extendFrame, if_neg (by omega), if_pos (by rw [field_len, length]), completeFrame, if_pos bad]

end

/-- Settles O57: by the assembler's state, and, in FRAME, by whether the character began in time. -/
theorem charactersAreAssembled : Obligations.CharactersAreAssembled := by
  intro time b s running
  have received := exec_characterReceived running time b
  refine ⟨fun hunt sync => ?_, fun hunt other => ?_, fun frame at_ inTime incomplete => ?_,
    fun frame t at_ some_ late expired => ?_⟩
  · obtain rfl : b = Config.sync := sync
    rw [received, charEndsAt_hunt hunt, onChar_of_taken (takeChar_sync (s := markChar (advanceTo time s)) hunt)]
    rfl
  · rw [received, charEndsAt_hunt hunt, onChar_of_taken (takeChar_passOver (s := markChar (advanceTo time s)) hunt other)]
    rfl
  · rw [received, charEndsAt_inTime inTime,
      onChar_of_taken ((takeChar_frame (s := markChar (advanceTo time s)) at_ b).trans (extendFrame_incomplete incomplete _))]
    rfl
  · rw [exec_gapTimer running] at expired
    obtain rfl : onGapTimer s = t := Host.Outcome.next.inj expired
    rw [received, exec_characterReceived ((onGapTimer_keepsHeld s).trans running), charEndsAt_late at_ some_ late]

/-- Settles O60: each kind of reject ends in the search of its own bytes. -/
theorem rejectsDiscardHeldFrame : Obligations.RejectsDiscardHeldFrame := by
  intro time now s frame bytes kept c trouble gapEnd running at_ reject leaves
  change exec c s = .next (finishLine (s.rejected trouble now gapEnd kept))
  replace leaves : Leaves bytes kept := leaves
  rcases reject with ⟨expires, rfl, timer, rfl, rfl, rfl, rfl⟩ | ⟨inTime, rfl, rfl, reject⟩
  · rw [exec_gapTimer running, onGapTimer, timer]
    dsimp only
    rw [rejectAndSearch_leaves (s := advanceTo expires s) at_ leaves, finishReception_rejectFrame]
    rfl
  · have arrives := charEndsAt_inTime inTime
    rcases reject with ⟨rfl, rfl, rfl⟩ | ⟨rfl, rfl, rfl⟩ | ⟨len, rfl, four, above, rfl, rfl⟩ |
      ⟨b, sync, dest, kind, tag, payload, crc, rfl, within, whole, two, differs, rfl, rfl⟩
    · rw [exec_frameReject running, arrives, onFrameReject,
        rejectAndSearch_leaves (s := markChar (advanceTo time s)) at_ leaves, finishReception_rejectFrame]
      rfl
    · obtain rfl := leaves.of_nil
      rw [exec_frameReject running, arrives, onFrameReject]
      simp only [rejectAndDrop, markChar_assembler, advanceTo_lrx, at_]
      rw [← setAssembler_self (rejectFrame_assembler .lineBreak _), finishReception_rejectFrame]
      rfl
    · rw [exec_frameReject running, arrives, onFrameReject,
        onChar_of_rejected (s := advanceTo time s) at_ leaves (by rintro rfl; simp at four) (extendFrame_length four above _)]
      rfl
    · rw [exec_frameComplete running, arrives,
        onChar_of_rejected (s := advanceTo time s) at_ leaves ?_ (whole ▸ extendFrame_crc within two differs _)]
      · rfl
      · rintro rfl
        simpa using congrArg List.length whole

end Sys2Proof.Machine

/-! HOLD follows the inbound occupancy (R123, R168): only an append or a removal, an activation and a reset change the queue,
the level or the thresholds, and each judges HOLD or clears it. -/

namespace Sys2Proof.Machine

/-! ### The thresholds -/

/-- R115, R120: check 11 of a valid set orders its thresholds, and the defaults are ordered. -/
theorem TableSet.holdOff_lt_holdOn {t : TableSet} (valid : t.invalid = none) :
    (t.link.getD .default).holdOff < (t.link.getD .default).holdOn := by
  have checked : t.checkLink = none := firstFailure_eq_none valid _ (by simp)
  unfold TableSet.checkLink at checked
  split at checked
  · next ordered =>
    cases link : t.link with
    | none => decide
    | some e => simpa [link] using ordered
  · nomatch checked

theorem GeometryLaw.holdOff_lt_holdOn {s : State} (h : GeometryLaw s) : s.link.holdOff < s.link.holdOn := by
  unfold State.link
  cases active : s.tables.active with
  | none => decide
  | some t => exact TableSet.holdOff_lt_holdOn (h.valid t active).1

/-- The HOLD law together with what makes it an invariant: the thresholds in force are in order. -/
structure HoldOrdered (s : State) : Prop extends HoldLaw s where
  ordered : s.link.holdOff < s.link.holdOn

/-- The inbound queue, HOLD and the active set are the same in both states. -/
structure SameHold (s t : State) : Prop where
  active : t.tables.active = s.tables.active
  inbound : t.lrx.inbound = s.lrx.inbound
  hold : t.lrx.hold = s.lrx.hold

section

variable {s t : State}

theorem SameHold.of_blocks (tables : t.tables = s.tables) (lrx : t.lrx = s.lrx) : SameHold s t :=
  ⟨by rw [tables], by rw [lrx], by rw [lrx]⟩

theorem HoldOrdered.congr (h : HoldOrdered s) (same : SameHold s t) : HoldOrdered t := by
  have link : t.link = s.link := by rw [State.link, State.link, same.active]
  obtain ⟨⟨on, off⟩, ordered⟩ := h
  exact ⟨⟨by rwa [link, same.inbound, same.hold], by rwa [link, same.inbound, same.hold]⟩, by rwa [link]⟩

/-- R168: HOLD that has just been judged agrees with the occupancy. -/
theorem HoldOrdered.judgeHold (ordered : s.link.holdOff < s.link.holdOn) : HoldOrdered (judgeHold s) where
  on full := if_pos full
  off empty := (if_neg (Nat.not_le_of_lt (Nat.lt_of_le_of_lt empty ordered))).trans (if_pos empty)
  ordered := ordered

/-- A reset leaves the inbound queue empty and HOLD inactive. -/
theorem HoldOrdered.of_empty (ordered : s.link.holdOff < s.link.holdOn) (empty : s.lrx.inbound = [])
    (inactive : s.lrx.hold = false) : HoldOrdered s where
  on full := by rw [empty, List.length_nil] at full; omega
  off _ := inactive
  ordered := ordered

end

/-! ### What leaves the inbound queue, HOLD and the thresholds alone -/

section

variable (s : State)

theorem SameHold.refl : SameHold s s := ⟨rfl, rfl, rfl⟩

theorem SameHold.trans {s t u : State} (h : SameHold s t) (h' : SameHold t u) : SameHold s u :=
  ⟨h'.active.trans h.active, h'.inbound.trans h.inbound, h'.hold.trans h.hold⟩

theorem SameHold.foldl {α : Type} {f : State → α → State} (kept : ∀ s x, SameHold s (f s x)) (xs : List α) :
    SameHold s (xs.foldl f s) := by
  induction xs generalizing s with
  | nil => exact .refl s
  | cons x xs ih => exact (kept s x).trans (ih _)

theorem whenRunning_hold {f : State → State} (kept : ∀ s, SameHold s (f s)) : SameHold s (whenRunning f s) := by
  unfold whenRunning
  split
  · exact .refl s
  · exact kept s

theorem inLot_hold {f : State → State} (kept : ∀ s, SameHold s (f s)) : SameHold s (inLot f s) := by
  unfold inLot
  split
  · exact kept s
  · exact .refl s

theorem advanceTo_hold (time : Nat) : SameHold s (advanceTo time s) := .of_blocks rfl rfl

theorem enqueue_hold (tag : Byte) (body : OutBody) : SameHold s (enqueue tag body s) := .of_blocks rfl rfl

theorem reply_hold (f : InFrame) (result : ResultCode) (bytes : List Byte) : SameHold s (reply f result bytes s) :=
  enqueue_hold s _ _

theorem finishLine_hold : SameHold s (finishLine s) := .of_blocks (by simp) (by simp)

/-- An edge in a lot state (R10, R20, R75, R83). -/
theorem edge_hold {f : State → State} (kept : ∀ s, SameHold s (f s)) (time : Nat) :
    SameHold s (whenRunning (fun s => inLot f (advanceTo time s)) s) :=
  whenRunning_hold s fun s => (advanceTo_hold s time).trans (inLot_hold _ kept)

/-! #### The dial -/

theorem compareHome_hold (home : Bool) : SameHold s (compareHome home s) := by
  have faulted : SameHold s { raiseFault .homeMismatch s.faultPocket none s with
      tracker := { (raiseFault .homeMismatch s.faultPocket none s).tracker with loadPocket := some 0 } } :=
    .of_blocks (by simp) (by simp)
  have released (t : State) (r : PocketRecord) : SameHold t (if r.counted then releaseIfDecided r t else t) := by
    split
    · exact .of_blocks (by simp) (by simp)
    · exact .refl t
  have suspected (ring : List PocketRecord) (t : State) : SameHold t (setRing ring t) := .of_blocks rfl rfl
  unfold compareHome homeMismatch
  split
  · exact .refl s
  · exact (faulted.trans (.foldl _ released _)).trans (suspected _ _)

theorem forwardParts_hold (home : Bool) : SameHold s (forwardParts home s) := by
  have moved : SameHold s (moveUp (cancelCheck s)) := .of_blocks (by simp) (by simp)
  have decided (t : State) : SameHold t (deadlines t) := .of_blocks (by simp) (by simp)
  have ended (t : State) : SameHold t (endSlots t) := .of_blocks (by simp) (by simp)
  have passed (t : State) : SameHold t (passes t) :=
    (SameHold.foldl t (f := fun s n => pass n s) (fun _ _ => .of_blocks (by simp) (by simp)) allOutlets).trans (ended _)
  have arrived (t : State) : SameHold t (arrivals t) :=
    .foldl t (f := fun s n => handOff n s) (fun _ _ => .of_blocks (by simp) (by simp)) allOutlets
  have timed (t : State) : SameHold t (startCheckTimer t) := .of_blocks rfl rfl
  exact ((((moved.trans (compareHome_hold _ home)).trans (decided _)).trans (passed _)).trans (arrived _)).trans (timed _)

theorem onForwardIndex_hold (home : Bool) : SameHold s (onForwardIndex home s) := by
  have counted (t : State) : SameHold t (countForward t) := by
    unfold countForward
    dsimp only
    split <;> exact .of_blocks (by simp) (by simp)
  exact ((forwardParts_hold s home).trans (counted _)).trans (finishLine_hold _)

theorem reverseParts_hold : SameHold s (reverseParts s) := by
  unfold reverseParts
  dsimp only
  split <;> exact .of_blocks (by simp) (by simp)

theorem onReverseIndex_hold : SameHold s (onReverseIndex s) :=
  (reverseParts_hold s).trans (.of_blocks (by simp [onReverseIndex]) (by simp [onReverseIndex]))

theorem onCheckSample_hold (check : Bool) : SameHold s (onCheckSample check s) := by
  unfold onCheckSample
  split <;> exact .of_blocks (by simp) (by simp)

theorem onJamRise_hold : SameHold s (onJamRise s) := .of_blocks (by simp [onJamRise]) (by simp [onJamRise])

/-! #### The outlets -/

theorem onFireDelayExpiry_hold (n : Fin 16) : SameHold s (onFireDelayExpiry n s) := by
  unfold onFireDelayExpiry
  (repeat' split) <;> exact .of_blocks (by simp) (by simp)

theorem onPulseEnd_hold (n : Fin 16) : SameHold s (onPulseEnd n s) := by
  unfold onPulseEnd
  split <;> exact .of_blocks (by simp) (by simp)

theorem onAck_hold (n : Fin 16) : SameHold s (onAck n s) := by
  unfold onAck
  (repeat' split) <;> exact .of_blocks (by simp) (by simp)

theorem onAckLimitExpiry_hold (n : Fin 16) : SameHold s (onAckLimitExpiry n s) := by
  unfold onAckLimitExpiry
  split <;> exact .of_blocks (by simp) (by simp)

theorem onDrop_hold (n : Fin 16) : SameHold s (onDrop n s) := by
  unfold onDrop
  (repeat' split) <;> exact .of_blocks (by simp) (by simp)

theorem onFlightMaxMiss_hold (n : Fin 16) : SameHold s (onFlightMaxMiss n s) := by
  unfold onFlightMaxMiss
  split <;> exact .of_blocks (by simp) (by simp)

/-! #### Requests -/

theorem serveMeas_hold (f : InFrame) : SameHold s (serveMeas f s) :=
  .of_blocks (by simp [serveMeas]) (by simp [serveMeas])

theorem serveStatusQuery_hold (f : InFrame) : SameHold s (serveStatusQuery f s) := by
  unfold serveStatusQuery
  split <;> exact .of_blocks rfl rfl

theorem servePocketQuery_hold (f : InFrame) : SameHold s (servePocketQuery f s) := by
  unfold servePocketQuery badField
  (repeat' split) <;> exact .of_blocks rfl rfl

theorem serveOutletQuery_hold (f : InFrame) : SameHold s (serveOutletQuery f s) := by
  unfold serveOutletQuery
  (repeat' split) <;> exact .of_blocks rfl rfl

theorem serveTableWrite_hold (f : InFrame) : SameHold s (serveTableWrite f s) := by
  unfold serveTableWrite badField storeEntry
  (repeat' split) <;> exact ⟨rfl, rfl, rfl⟩

theorem serveTableRead_hold (f : InFrame) : SameHold s (serveTableRead f s) := by
  unfold serveTableRead badField
  (repeat' split) <;> exact .of_blocks rfl rfl

theorem serveTableDiscard_hold (f : InFrame) : SameHold s (serveTableDiscard f s) := by
  unfold serveTableDiscard
  split <;> exact ⟨rfl, rfl, rfl⟩

theorem serveLotStart_hold (f : InFrame) : SameHold s (serveLotStart f s) := by
  unfold serveLotStart badField
  (repeat' split) <;> exact .of_blocks (by simp) (by simp)

theorem bookAll_hold (reports : List SortReport) : SameHold s (bookAll reports s) :=
  .foldl s (f := fun s (r : SortReport) => book r.pocket r s) (fun _ _ => .of_blocks (by simp) (by simp)) reports

theorem abandonRunOut_hold : SameHold s (abandonRunOut s) := by
  obtain ⟨active, inbound, hold⟩ := bookAll_hold (endSlots s) s.ringReports
  rw [abandonRunOut_eq]
  exact ⟨active, inbound, hold⟩

theorem serveLotEnd_hold (f : InFrame) : SameHold s (serveLotEnd f s) := by
  have begun (stage : Stage) (kind : RunKind) : SameHold s (beginClearance stage kind s) := .of_blocks rfl rfl
  have tested (t : State) : SameHold t (advanceClearance t) := .of_blocks (by simp) (by simp)
  unfold serveLotEnd
  split
  · exact reply_hold ..
  split
  · exact reply_hold ..
  split
  · exact (((begun _ _).trans (abandonRunOut_hold _)).trans (reply_hold ..)).trans (tested _)
  · exact ((begun _ _).trans (reply_hold ..)).trans (tested _)

theorem serveLotAbort_hold (f : InFrame) : SameHold s (serveLotAbort f s) := by
  have closed : SameHold s (abortClose (abortBookings s)) := by
    obtain ⟨active, inbound, hold⟩ := bookAll_hold s (s.ringReports ++ s.queueReports)
    rw [abort_eq]
    exact ⟨active, inbound, hold⟩
  unfold serveLotAbort
  split
  · exact reply_hold ..
  split
  · exact reply_hold ..
  · exact closed.trans ((reply_hold ..).trans (enqueue_hold ..))

theorem serveOutletReset_hold (f : InFrame) : SameHold s (serveOutletReset f s) := by
  unfold serveOutletReset
  dsimp only
  (repeat' split) <;> exact .of_blocks rfl rfl

theorem serveClearFault_hold (f : InFrame) : SameHold s (serveClearFault f s) := by
  unfold serveClearFault
  (repeat' split) <;> exact .of_blocks (by simp) (by simp)

theorem serveNoticeAck_hold (f : InFrame) : SameHold s (serveNoticeAck f s) := by
  unfold serveNoticeAck badField
  (repeat' split) <;> exact .of_blocks (by simp) (by simp)

theorem serveNoticeMask_hold (f : InFrame) : SameHold s (serveNoticeMask f s) := by
  unfold serveNoticeMask badField
  (repeat' split) <;> exact .of_blocks (by simp) (by simp)

theorem serveNodeAssign_hold (f : InFrame) : SameHold s (serveNodeAssign f s) := by
  unfold serveNodeAssign badField
  (repeat' split) <;> exact ⟨rfl, rfl, rfl⟩

/-! #### The line -/

theorem onUrgentReply_hold : SameHold s (onUrgentReply s) := by
  unfold onUrgentReply
  (repeat' split) <;> exact ⟨by simp, by simp, by simp⟩

theorem onSummaryStage_hold : SameHold s (onSummaryStage s) := by
  unfold onSummaryStage
  split <;> exact .of_blocks (by simp) (by simp)

theorem onNotice_hold : SameHold s (onNotice s) := by
  unfold onNotice
  (repeat' split) <;> exact .of_blocks (by simp) (by simp)

theorem takeHalt_hold (tag : Byte) : SameHold s (takeHalt tag s) := by
  unfold takeHalt offerHaltReply
  (repeat' split) <;> exact ⟨by simp, by simp, by simp⟩

theorem rejectFrame_hold (trouble : LinkTrouble) : SameHold s (rejectFrame trouble s) := ⟨rfl, rfl, rfl⟩

theorem finishReception_hold : SameHold s (finishReception s) :=
  .trans (t := timeGap s) ⟨rfl, rfl, rfl⟩ (finishLine_hold _)

theorem idle_hold : SameHold s (idle s) := by
  unfold idle
  split <;> exact .of_blocks rfl rfl

end

/-! ### Every command keeps HOLD in agreement -/

namespace HoldOrdered

variable {s : State}

theorem whenRunning {f : State → State} (h : HoldOrdered s) (kept : HoldOrdered s → HoldOrdered (f s)) :
    HoldOrdered (whenRunning f s) := by
  unfold Machine.whenRunning
  split
  · exact h
  · exact kept h

theorem setInbound (frames : List InFrame) (h : HoldOrdered s) : HoldOrdered (setInbound frames s) := judgeHold h.ordered

/-! #### Resets -/

theorem fullReset (cause : ResetCause) (held : Bool) (rate : BitRate) (address : Option (Fin 4)) (s : State) :
    HoldOrdered (fullReset cause held rate address s) :=
  of_empty (show LinkEntry.default.holdOff < LinkEntry.default.holdOn by decide) rfl rfl

theorem coreReset (h : HoldOrdered s) : HoldOrdered (coreReset s) := of_empty h.ordered rfl rfl

theorem beginHold (cause : ResetCause) (h : HoldOrdered s) : HoldOrdered (beginHold cause s) := by
  unfold Machine.beginHold
  split
  · exact h
  · exact fullReset ..

theorem endHold (rate1 rate0 : Bool) (addr1 addr0 : StrapLevel) (h : HoldOrdered s) :
    HoldOrdered (endHold rate1 rate0 addr1 addr0 s) := by
  unfold Machine.endHold
  split
  · exact (fullReset ..).congr (.of_blocks (announceStart_tables ..) (announceStart_lrx ..))
  · exact h

/-! #### The Dispatcher -/

/-- R123: the activated set has passed check 11, and HOLD is judged by it. -/
theorem activate (valid : s.tables.staged.invalid = none) : HoldOrdered (activate s) := by
  have ordered := TableSet.holdOff_lt_holdOn valid
  exact judgeHold ordered

theorem serveTableCommit (f : InFrame) (h : HoldOrdered s) : HoldOrdered (serveTableCommit f s) := by
  unfold Machine.serveTableCommit commit
  split
  · exact h.congr (.of_blocks rfl rfl)
  split
  · exact h.congr (.of_blocks rfl rfl)
  split
  · exact h.congr ⟨rfl, rfl, rfl⟩
  split
  · exact h.congr (.of_blocks rfl rfl)
  · next valid => exact (activate valid).congr (.of_blocks rfl rfl)

theorem effectOf (kind : Option RequestKind) (f : InFrame) (h : HoldOrdered s) : HoldOrdered (effectOf kind f s) := by
  match kind with
  | some .meas => exact h.congr (serveMeas_hold s f)
  | some .statusQuery => exact h.congr (serveStatusQuery_hold s f)
  | some .pocketQuery => exact h.congr (servePocketQuery_hold s f)
  | some .outletQuery => exact h.congr (serveOutletQuery_hold s f)
  | some .tableWrite => exact h.congr (serveTableWrite_hold s f)
  | some .tableRead => exact h.congr (serveTableRead_hold s f)
  | some .tableDiscard => exact h.congr (serveTableDiscard_hold s f)
  | some .tableCommit => exact h.serveTableCommit f
  | some .lotStart => exact h.congr (serveLotStart_hold s f)
  | some .lotEnd => exact h.congr (serveLotEnd_hold s f)
  | some .lotAbort => exact h.congr (serveLotAbort_hold s f)
  | some .outletReset => exact h.congr (serveOutletReset_hold s f)
  | some .clearFault => exact h.congr (serveClearFault_hold s f)
  | some .noticeAck => exact h.congr (serveNoticeAck_hold s f)
  | some .noticeMask => exact h.congr (serveNoticeMask_hold s f)
  | some .nodeAssign => exact h.congr (serveNodeAssign_hold s f)
  | none => exact h.congr (.of_blocks rfl rfl)

theorem serveHead (kind : Option RequestKind) (f : InFrame) (rest : List InFrame) (h : HoldOrdered s) :
    HoldOrdered (serveHead (Machine.effectOf kind) f rest s) := (h.setInbound rest).effectOf kind f

theorem serve (kind : Option RequestKind) (h : HoldOrdered s) : HoldOrdered (serve kind (Machine.effectOf kind) s) := by
  unfold Machine.serve
  split
  · split
    · exact (h.serveHead kind _ _).congr (finishLine_hold _)
    · exact h
  · exact h

theorem serveWaiting (waited : Bool) (h : HoldOrdered s) : HoldOrdered (serveWaiting waited s) := by
  unfold Machine.serveWaiting
  split
  · split
    · exact h.serveHead _ _ _
    · exact h
  · exact h

theorem onTransmissionEnd (h : HoldOrdered s) : HoldOrdered (onTransmissionEnd s) := by
  have freed (ends : Nat) :
      SameHold s (admitUrgent (freePlace (quietTxd ends (advanceTo (ends / Config.ticksPerUs) s)))) := ⟨rfl, rfl, rfl⟩
  have placed (t : State) : SameHold t (startTransmission (queueOwed (summaryStep t))) := .of_blocks (by simp) (by simp)
  unfold Machine.onTransmissionEnd
  split
  · exact ((h.congr (freed _)).serveWaiting _).congr (placed _)
  · exact h.congr (.of_blocks rfl rfl)
  · exact h

/-! #### The line -/

theorem acceptKept (f : InFrame) (held : List Byte) (h : HoldOrdered s) : HoldOrdered (acceptKept f held s).1 := by
  unfold Machine.acceptKept
  split
  · split
    · exact h.congr (rejectFrame_hold s .length)
    · split
      · exact h.congr (takeHalt_hold s _)
      · exact h.coreReset
  · split
    · exact h.congr (.of_blocks (by simp) (by simp))
    · unfold appendInbound
      split
      · exact h.setInbound _
      · exact h.congr ⟨rfl, rfl, rfl⟩

theorem takeChar (b : Byte) (h : HoldOrdered s) : HoldOrdered (takeChar b s).1 := by
  have assembled (a : Assembler) : HoldOrdered (setAssembler a s) := h.congr ⟨rfl, rfl, rfl⟩
  unfold Machine.takeChar
  split
  · split
    · exact assembled _
    · exact h
  unfold extendFrame completeFrame
  split
  · exact h.congr (rejectFrame_hold s .length)
  split
  · split
    · exact h.congr (rejectFrame_hold s .crc)
    split
    · exact (assembled .hunt).acceptKept _ _
    · exact assembled .hunt
  · exact assembled _

theorem search (bytes : List Byte) (h : HoldOrdered s) : HoldOrdered (search bytes s) :=
  takeChars_keeps (fun b _ h => h.takeChar b) _ bytes h

theorem markChar (h : HoldOrdered s) : HoldOrdered (markChar s) := h.congr ⟨rfl, rfl, rfl⟩

theorem onChar (b : Byte) (h : HoldOrdered s) : HoldOrdered (onChar b s) :=
  (h.markChar.search [b]).congr (finishReception_hold _)

theorem rejectAndSearch (trouble : LinkTrouble) (h : HoldOrdered s) : HoldOrdered (rejectAndSearch trouble s) := by
  unfold Machine.rejectAndSearch
  split
  · exact h
  · exact (h.congr (rejectFrame_hold s trouble)).search _

theorem onGapTimer (h : HoldOrdered s) : HoldOrdered (onGapTimer s) := by
  unfold Machine.onGapTimer
  split
  · exact ((h.congr (advanceTo_hold s _)).rejectAndSearch .gap).congr (finishReception_hold _)
  · exact h

theorem charEndsAt (time : Nat) (h : HoldOrdered s) : HoldOrdered (charEndsAt time s) := by
  have expire (fuel : Nat) {t : State} (ht : HoldOrdered t) : HoldOrdered (expireGaps time fuel t) := by
    induction fuel generalizing t with
    | zero => exact ht
    | succ fuel ih =>
      unfold expireGaps
      split
      · exact ih ht.onGapTimer
      · exact ht
  exact (expire _ h).congr (advanceTo_hold _ time)

theorem onFrameReject (trouble : LineTrouble) (h : HoldOrdered s) : HoldOrdered (onFrameReject trouble s) := by
  cases trouble with
  | length len => exact h.onChar len
  | framing => exact (h.markChar.rejectAndSearch .framing).congr (finishReception_hold _)
  | lineBreak =>
    refine .congr ?_ (finishReception_hold _)
    unfold rejectAndDrop
    split
    · exact h.markChar
    · exact h.markChar.congr (rejectFrame_hold _ _)

/-! #### The step -/

theorem exec (c : Instr) {t : State} (h : HoldOrdered s) (run : exec c s = .next t) : HoldOrdered t := by
  have row (kind : Option RequestKind) :
      HoldOrdered (Machine.whenRunning (Machine.serve kind (Machine.effectOf kind)) s) := h.whenRunning (serve kind)
  have char (b : Byte) (time : Nat) :
      HoldOrdered (Machine.whenRunning (fun s => Machine.onChar b (Machine.charEndsAt time s)) s) :=
    h.whenRunning fun h => (h.charEndsAt time).onChar b
  have jam (level : Bool) : HoldOrdered { s with jam := level } := h.congr (.of_blocks rfl rfl)
  cases c <;> cases run
  case forwardIndex time home => exact h.congr (edge_hold s (onForwardIndex_hold · home) time)
  case reverseIndex time => exact h.congr (edge_hold s onReverseIndex_hold time)
  case checkSample check => exact h.congr (whenRunning_hold s (inLot_hold · (onCheckSample_hold · check)))
  case fireDelayExpiry n => exact h.congr (whenRunning_hold s (onFireDelayExpiry_hold · n))
  case pulseEnd n => exact h.congr (whenRunning_hold s (onPulseEnd_hold · n))
  case ack time n => exact h.congr (edge_hold s (onAck_hold · n) time)
  case ackLimitExpiry n => exact h.congr (whenRunning_hold s (onAckLimitExpiry_hold · n))
  case drop time n => exact h.congr (edge_hold s (onDrop_hold · n) time)
  case flightMaxMiss n => exact h.congr (whenRunning_hold s (inLot_hold · (onFlightMaxMiss_hold · n)))
  case jamRise time =>
    exact (jam true).congr (whenRunning_hold _ fun s => (advanceTo_hold s time).trans (onJamRise_hold _))
  case jamFall time => exact (jam false).congr (whenRunning_hold _ (advanceTo_hold · time))
  case powerOn => exact h.beginHold _
  case supplyLow => exact h.beginHold _
  case external => exact h.beginHold _
  case resetHoldEnd rate1 rate0 addr1 addr0 => exact h.endHold rate1 rate0 addr1 addr0
  case frameReject time trouble => exact h.whenRunning fun h => (h.charEndsAt time).onFrameReject trouble
  case gapTimer => exact h.whenRunning onGapTimer
  case frameComplete time b => exact char b time
  case characterReceived time b => exact char b time
  case halt tag =>
    exact h.congr (whenRunning_hold s fun s => (takeHalt_hold s tag).trans (finishLine_hold _))
  case coreReset => exact h.whenRunning coreReset
  case meas => exact row (some .meas)
  case statusQuery => exact row (some .statusQuery)
  case pocketQuery => exact row (some .pocketQuery)
  case outletQuery => exact row (some .outletQuery)
  case tableWrite => exact row (some .tableWrite)
  case tableRead => exact row (some .tableRead)
  case tableDiscard => exact row (some .tableDiscard)
  case tableCommit => exact row (some .tableCommit)
  case lotStart => exact row (some .lotStart)
  case lotEnd => exact row (some .lotEnd)
  case lotAbort => exact row (some .lotAbort)
  case outletReset => exact row (some .outletReset)
  case clearFault => exact row (some .clearFault)
  case noticeAck => exact row (some .noticeAck)
  case noticeMask => exact row (some .noticeMask)
  case nodeAssign => exact row (some .nodeAssign)
  case unknownKind => exact row none
  case transmissionEnd => exact h.whenRunning onTransmissionEnd
  case urgentReply => exact h.congr (whenRunning_hold s onUrgentReply_hold)
  case summaryStage => exact h.congr (whenRunning_hold s onSummaryStage_hold)
  case notice => exact h.congr (whenRunning_hold s onNotice_hold)

theorem step {t : State} (h : HoldOrdered s) (run : step s = .next t) : HoldOrdered t := by
  unfold Machine.step at run
  split at run
  · next c rest _ => exact exec (s := { s with pending := rest }) c (h.congr (.of_blocks rfl rfl)) run
  · cases run
    exact h.congr (idle_hold s)

end HoldOrdered

/-- Settles O7: the geometry law orders the thresholds, and every step keeps them ordered and HOLD in agreement. -/
theorem holdLawIsKept : Obligations.HoldLawIsKept := fun _ _ geometry law run =>
  (HoldOrdered.step ⟨law, geometry.holdOff_lt_holdOn⟩ run).toHoldLaw

end Sys2Proof.Machine

/-! HALTED, the first fault, the return state and the clearance record stand together (R126, R134, R135, R146): faults, the
stages of a clearance, the ends of a lot and resets move them together, and nothing else moves them. -/

namespace Sys2Proof.Machine

/-- R154: when the SUMMARY stage can close the lot, and with which end kind. -/
theorem State.closeKind_eq_some_iff {s : State} {kind : EndKind} : s.closeKind = some kind ↔
    ∃ c, s.sup.clearance = some c ∧ c.stage = .summary ∧ s.sup.engine = .clearing
      ∧ s.ltx.outbound.length < Config.outboundLimit ∧ c.kind.endKind = kind := by
  unfold State.closeKind
  cases s.sup.clearance <;> simp [and_assoc]

theorem FaultRecord.append_first (f : FaultRecord) (e : FaultEntry) : (f.append e).first = f.first := by
  unfold FaultRecord.append
  split <;> rfl

namespace SupervisorLaw

variable {s t : State}

/-! ### Changes by what they move -/

/-- The engine state, the return state and the fault record are kept, and clearance goes on or stays away. -/
theorem of_standing (h : SupervisorLaw s) (engine : t.sup.engine = s.sup.engine)
    (returnState : t.sup.returnState = s.sup.returnState) (faults : t.sup.faults = s.sup.faults)
    (clearance : t.sup.clearance.isSome = s.sup.clearance.isSome) : SupervisorLaw t := by
  have clearing : t.isClearing = s.isClearing := by simp [State.isClearing, engine, returnState]
  obtain ⟨first, ret, later, clear⟩ := h
  constructor <;> simp only [engine, returnState, faults, clearance, clearing] <;> assumption

theorem of_sup (h : SupervisorLaw s) (sup : t.sup = s.sup) : SupervisorLaw t :=
  h.of_standing (by rw [sup]) (by rw [sup]) (by rw [sup]) (by rw [sup])

/-- Outside HALTED there is no return state and no fault. -/
theorem running (h : SupervisorLaw s) (engine : s.sup.engine ≠ .halted) :
    s.sup.returnState = none ∧ s.sup.faults = .empty := by
  have noFirst : s.sup.faults.first = none := by simpa using mt h.halted_first.mpr engine
  have noReturn : s.sup.returnState = none := by simpa using mt h.halted_return.mpr engine
  have noLater := mt h.later_first (by simp [noFirst])
  rw [not_or, not_not, Bool.not_eq_true] at noLater
  refine ⟨noReturn, ?_⟩
  calc s.sup.faults = ⟨s.sup.faults.first, s.sup.faults.later, s.sup.faults.overflow⟩ := rfl
    _ = .empty := by rw [noFirst, noLater.1, noLater.2]; rfl

theorem of_running (engine : s.sup.engine ≠ .halted) (returnState : s.sup.returnState = none)
    (faults : s.sup.faults = .empty) (clearance : s.sup.clearance.isSome ↔ s.sup.engine = .clearing) : SupervisorLaw s where
  halted_first := by simp [engine, faults, FaultRecord.empty]
  halted_return := by simp [engine, returnState]
  later_first := by simp [faults, FaultRecord.empty]
  clearing := by
    rw [clearance, State.isClearing]
    cases running : s.sup.engine <;> simp_all

theorem clearance_iff (h : SupervisorLaw s) (engine : s.sup.engine ≠ .halted) :
    s.sup.clearance.isSome ↔ s.sup.engine = .clearing := by
  rw [h.clearing, State.isClearing]
  cases running : s.sup.engine <;> simp_all

/-- In HALTED the lot clears exactly when the return state is CLEARING. -/
theorem clearance_iff_of_halted (h : SupervisorLaw s) (engine : s.sup.engine = .halted) :
    s.sup.clearance.isSome ↔ s.sup.returnState = some .clearing := by
  rw [h.clearing, State.isClearing, engine, beq_iff_eq]

/-! ### Faults and bookings -/

theorem enterHalted {ret : RunState} (e : FaultEntry) (clearance : s.sup.clearance.isSome ↔ ret = .clearing) :
    SupervisorLaw (enterHalted ret e s) where
  halted_first := ⟨fun _ => rfl, fun _ => rfl⟩
  halted_return := ⟨fun _ => rfl, fun _ => rfl⟩
  later_first _ := rfl
  clearing := by
    change s.sup.clearance.isSome ↔ (some ret == some RunState.clearing) = true
    rw [clearance, beq_iff_eq, Option.some_inj]

theorem raiseFault (code : FaultCode) (pocket : Nat) (seq : Option Nat) (h : SupervisorLaw s) :
    SupervisorLaw (raiseFault code pocket seq s) := by
  unfold Machine.raiseFault
  split
  · next sorting => exact enterHalted _ (by simp [h.clearance_iff, sorting])
  · next clearing => exact enterHalted _ (by simp [h.clearance_iff, clearing])
  · next halted =>
    have first : s.sup.faults.first.isSome := h.halted_first.mp halted
    exact {
      halted_first := by simp [FaultRecord.append_first, halted, first]
      halted_return := h.halted_return
      later_first := fun _ => by rwa [FaultRecord.append_first]
      clearing := h.clearing }
  · exact h
  · exact h

theorem book (pocket : Nat) (report : SortReport) (h : SupervisorLaw s) : SupervisorLaw (book pocket report s) :=
  h.of_standing rfl rfl rfl rfl

theorem discard (reason : Discard) (h : SupervisorLaw s) : SupervisorLaw (discard reason s) :=
  h.of_standing rfl rfl rfl rfl

/-! ### Clearance -/

theorem setStage (stage : Stage) (h : SupervisorLaw s) : SupervisorLaw (setStage stage s) :=
  h.of_standing rfl rfl rfl Option.isSome_map

theorem countIndex (by_ : Int) (h : SupervisorLaw s) : SupervisorLaw (countIndex by_ s) :=
  h.of_standing rfl rfl rfl Option.isSome_map

/-- R155: a lot that closes was CLEARING. -/
theorem summaryStep (h : SupervisorLaw s) : SupervisorLaw (summaryStep s) := by
  unfold Machine.summaryStep
  split
  · next kind close =>
    obtain ⟨_, -, -, clearing, -⟩ := State.closeKind_eq_some_iff.mp close
    obtain ⟨noReturn, noFault⟩ := h.running (by simp [clearing])
    exact of_running (by simp [closeLot]) noReturn noFault (by simp [closeLot])
  · exact h

theorem advanceClearance (h : SupervisorLaw s) : SupervisorLaw (advanceClearance s) := by
  have staged (c : Prop) [Decidable c] (stage : Stage) {t : State} (ht : SupervisorLaw t) :
      SupervisorLaw (if c then Machine.setStage stage t else t) := by
    split
    · exact ht.setStage stage
    · exact ht
  exact summaryStep (staged _ _ (staged _ _ (staged _ _ h)))

/-! ### The dial -/

theorem cancelCheck (h : SupervisorLaw s) : SupervisorLaw (cancelCheck s) := by
  have stopped : SupervisorLaw (stopCheckTimer s) := h.of_sup rfl
  unfold Machine.cancelCheck handleUnchecked
  split
  · split
    · split
      · exact stopped
      · exact raiseFault _ _ _ (stopped.of_sup (by simp))
    · exact stopped
  · exact h

theorem moveUp (h : SupervisorLaw s) : SupervisorLaw (moveUp s) := by
  have retired (r : PocketRecord) : SupervisorLaw (retire r (setRing (s.tracker.ring.take s.z) s)) := by
    have left : SupervisorLaw (setRing (s.tracker.ring.take s.z) s) := h.of_sup rfl
    unfold retire
    split
    · split
      · exact left.of_standing rfl rfl rfl rfl
      · exact left.of_sup rfl
    · exact left.of_sup rfl
  unfold Machine.moveUp
  dsimp only
  split
  · next r _ => exact (retired r).of_sup (by simp)
  · exact h.of_sup (by simp)

theorem compareHome (home : Bool) (h : SupervisorLaw s) : SupervisorLaw (compareHome home s) := by
  unfold Machine.compareHome
  split
  · exact h
  · have faulted := h.raiseFault .homeMismatch s.faultPocket none
    unfold homeMismatch
    dsimp only
    refine of_sup ?_ (setRing_sup _ _)
    refine List.foldlRecOn (motive := SupervisorLaw) _ _ (faulted.of_sup rfl) fun t ht r _ => ?_
    split
    · exact ht.of_sup (by simp)
    · exact ht

theorem forwardParts (home : Bool) (h : SupervisorLaw s) : SupervisorLaw (forwardParts home s) := by
  have compared := (h.cancelCheck.moveUp.compareHome home).of_sup (deadlines_sup _)
  have passed := List.foldlRecOn (motive := SupervisorLaw) allOutlets (fun s n => pass n s) compared
    fun _ ht _ _ => ht.of_sup (by simp)
  have arrived := List.foldlRecOn (motive := SupervisorLaw) allOutlets (fun s n => handOff n s)
    (passed.of_sup (endSlots_sup _)) fun _ ht _ _ => ht.of_sup (by simp)
  exact arrived.of_sup rfl

theorem reverseParts (h : SupervisorLaw s) : SupervisorLaw (reverseParts s) := by
  have discarded (r : PocketRecord) : SupervisorLaw (discardBottom r (Machine.cancelCheck s)) := by
    have released := h.cancelCheck.of_sup (releaseIfDecided_sup r _)
    unfold discardBottom
    dsimp only
    split
    · exact released.book _ _
    · exact released
  unfold Machine.reverseParts
  dsimp only
  split
  · next r _ _ => exact (discarded r).of_sup (by simp)
  · exact h.cancelCheck.of_sup (by simp)

theorem retain (r : PocketRecord) (counted : Bool) (h : SupervisorLaw s) : SupervisorLaw (retain r counted s) :=
  raiseFault _ _ _ (h.of_sup rfl)

theorem samplePresent (r : PocketRecord) (h : SupervisorLaw s) : SupervisorLaw (samplePresent r s) := by
  unfold Machine.samplePresent
  split
  case h_6 => exact retain _ _ (h.of_sup (by simp))
  case h_8 => exact retain _ _ (h.of_sup (by simp))
  case h_10 => exact h
  all_goals exact h.retain _ _

theorem sampleClear (r : PocketRecord) (h : SupervisorLaw s) : SupervisorLaw (sampleClear r s) := by
  have settled {t : State} (ht : SupervisorLaw t) (phase : Phase) :
      SupervisorLaw (if r.counted then bookAtCheck r t else modRing s.z (.settle phase) t) := by
    split
    · exact ht.of_standing rfl rfl rfl rfl
    · exact ht.of_sup rfl
  unfold Machine.sampleClear
  split
  case h_7 | h_9 | h_10 => exact settled h _
  case h_8 => exact settled (h.of_sup (by simp)) _
  all_goals exact h

theorem takeSample (check : Bool) (h : SupervisorLaw s) : SupervisorLaw (takeSample check s) := by
  have marked : SupervisorLaw (markChecked s) := h.of_sup rfl
  unfold Machine.takeSample
  split
  · split
    · exact marked.samplePresent _
    · exact marked.sampleClear _
  · exact h

/-! ### Drops, misses and MEAS -/

theorem takeDrop (n : Fin 16) (cfg : OutletEntry) (h : SupervisorLaw s) : SupervisorLaw (takeDrop n cfg s) := by
  have stray : SupervisorLaw (strayDrop n s) := h.of_standing rfl rfl rfl rfl
  have full (e : Entry) (before : Nat) {t : State} (ht : SupervisorLaw t) : SupervisorLaw (raiseFull n e cfg before t) := by
    have noticed : SupervisorLaw (if before + 1 = cfg.capacity then raiseNotice .outletFull n.val t else t) := by
      split
      · exact ht.of_sup rfl
      · exact ht
    unfold raiseFull
    dsimp only
    split
    · exact noticed.raiseFault _ _ _
    · exact noticed
  unfold Machine.takeDrop
  split
  · next e rest _ =>
    split
    · exact stray
    · have counted : SupervisorLaw (countRecovered e.counted
          (modOutlet n (fun o => o.confirm e.counted cfg.capacity rest) s)) := h.of_standing rfl rfl rfl rfl
      exact (full e _ counted).of_sup (confirmRecord_sup ..)
  · exact stray

theorem missHead (n : Fin 16) (e : Entry) (rest : List Entry) (h : SupervisorLaw s) : SupervisorLaw (missHead n e rest s) := by
  have missed : SupervisorLaw (accountMiss n (modOutlet n (fun o => { o with queue := rest }) s)) := h.of_sup (by simp)
  unfold Machine.missHead missFate
  split
  · split
    · split
      · exact missed.of_standing rfl rfl rfl rfl
      · exact missed.of_sup rfl
    · exact missed.of_sup rfl
  · split
    · exact missed.of_standing rfl rfl rfl rfl
    · exact missed.of_sup rfl
  · split
    · exact missed.book _ _
    · exact missed

theorem applyResult (k : Nat) (r : PocketRecord) (m : Meas) (h : SupervisorLaw s) : SupervisorLaw (applyResult k r m s) := by
  have counted : SupervisorLaw (countPart k (addResult k m s)) := h.of_standing rfl rfl rfl rfl
  have added : SupervisorLaw (addResult k m s) := h.of_sup rfl
  unfold Machine.applyResult contactOpen contactVoid
  split
  · split
    · split
      · exact counted.of_sup rfl
      · exact added.of_sup rfl
      · exact counted.of_sup (finalVerdict_sup ..)
      all_goals exact added
    · split
      · exact counted.of_sup (finalVerdict_sup ..)
      · exact counted.of_sup (finalVerdict_sup ..)
      all_goals exact added
  · exact added.of_sup (valueResult_sup ..)
  · exact added.of_sup (recheckResult_sup ..)

theorem takeMeas (f : InFrame) (h : SupervisorLaw s) : SupervisorLaw (takeMeas f s) := by
  have placed (m : Meas) (e : StationEntry) : SupervisorLaw (placeResult m e s) := by
    unfold placeResult
    split
    · exact h.discard _
    · split
      · split
        · exact h.discard _
        · exact h.applyResult _ _ m
      · exact h
  unfold Machine.takeMeas
  split
  · exact h.discard _
  split
  · exact h.discard _
  split
  · exact h.discard _
  split
  · exact placed _ _
  · exact h.discard _

/-! ### Lots, tables and resets -/

theorem activate (noLot : s.lotOpen = false) (h : SupervisorLaw s) : SupervisorLaw (activate s) := by
  have outside : s.sup.engine ≠ .halted ∧ s.sup.engine ≠ .clearing := by
    constructor <;> intro engine <;> simp [State.lotOpen, engine] at noLot
  obtain ⟨noReturn, noFault⟩ := h.running outside.1
  have ready := EngineState.afterCommit_of_noLot noLot
  have noClearance : ¬ s.sup.clearance.isSome := mt (h.clearance_iff outside.1).mp outside.2
  apply of_running <;> simp only [activate_sup, ready]
  · simp
  · exact noReturn
  · exact noFault
  · simpa using noClearance

theorem beginClearance (stage : Stage) (kind : RunKind) (h : SupervisorLaw s) :
    SupervisorLaw (beginClearance stage kind s) := by
  by_cases halted : s.sup.engine = .halted
  · have first := h.halted_first.mp halted
    constructor <;> simp [Machine.beginClearance, State.isClearing, halted, first]
  · obtain ⟨-, noFault⟩ := h.running halted
    apply of_running <;> simp [Machine.beginClearance, halted, noFault]

theorem abandonRunOut (h : SupervisorLaw s) : SupervisorLaw (abandonRunOut s) :=
  h.of_standing (by rw [abandonRunOut_sup]) (by rw [abandonRunOut_sup]) (by rw [abandonRunOut_sup])
    (by rw [abandonRunOut_sup])

/-- R138: the engine returns to what the lot was doing. -/
theorem leaveHalted (halted : s.sup.engine = .halted) (h : SupervisorLaw s) : SupervisorLaw (leaveHalted s) := by
  have clearance := h.clearance_iff_of_halted halted
  obtain ⟨ret, returns⟩ := Option.isSome_iff_exists.mp (h.halted_return.mp halted)
  rw [returns] at clearance
  cases ret <;> apply of_running <;> simp [Machine.leaveHalted, returns, clearance]

/-- Every event keeps the law. -/
theorem events : EventsKeep SupervisorLaw SupervisorLaw SupervisorLaw where
  congr_P same h := h.of_sup same.sup
  congr_R same h := h.of_sup same.sup
  congr_Q same h := h.of_sup same.sup
  weaken := id
  relax := id
  stages := advanceClearance
  close := summaryStep
  count := countIndex
  fault := raiseFault
  discarded := discard
  coreReset {s} _ := by
    refine of_running ?_ rfl rfl ?_ <;> cases active : s.tables.active <;>
      simp [Machine.coreReset, Supervisor.afterReset, TableStore.engineAfterReset, active]
  fullReset _ _ _ _ := of_running nofun rfl rfl ⟨nofun, nofun⟩
  forward home _ h := h.forwardParts home
  reverse _ h := h.reverseParts
  sample check _ h := takeSample check (h.of_sup rfl)
  delay _ _ _ _ h := h.of_sup (by simp)
  pulse _ _ _ h := h.of_sup (by simp)
  ack _ _ _ _ h := h.of_sup (by simp)
  ackLimit _ _ _ _ h := h.of_sup (by simp)
  drop n cfg _ h := h.takeDrop n cfg
  miss n e rest _ h := h.missHead n e rest
  meas f h := h.takeMeas f
  activate noLot h := h.activate noLot
  openLot _ _ _ _ := of_running (by simp [openLot]) rfl rfl (by simp [openLot])
  runOut _ h := h.beginClearance _ _
  abandon _ h := (h.beginClearance _ _).abandonRunOut
  abort _ _ := of_running (by simp [abortClose]) rfl rfl (by simp [abortClose])
  resume halted h := h.leaveHalted halted
  emptyBin _ h := h.of_sup (by simp)

end SupervisorLaw

/-- Settles O4: faults, clearance, the ends of a lot and resets move the engine state, the return state, the fault record and
the clearance record together, and every other change of an event leaves the four alone. -/
theorem supervisorLawIsKept : Obligations.SupervisorLawIsKept := fun _ _ h run => SupervisorLaw.events.step h run

end Sys2Proof.Machine

/-! The Notice Unit's flags and the producers that wait for a place (R169, R170, R178 to R183): which conditions are owed,
what the end of an event queues of them, and the close of a lot by its SUMMARY stage (R154, R155). -/

namespace Sys2Proof.Machine

section

variable {s : State} {c : Condition}

/-! ### The conditions in their order -/

/-- The conditions up to and behind one of them, by their numbers (R180). -/
theorem Condition.all_split (c : Condition) :
    Condition.all = Condition.all.take c.index ++ c :: Condition.all.drop (c.index + 1) := by
  cases c <;> rfl

theorem Condition.index_lt_of_mem_take (c : Condition) : ∀ c' ∈ Condition.all.take c.index, c'.index < c.index := by
  cases c <;> decide

theorem Condition.index_ne_of_mem_drop (c : Condition) : ∀ c' ∈ Condition.all.drop (c.index + 1), c'.index ≠ c.index := by
  cases c <;> decide

/-- Every condition number names one of the conditions. -/
theorem Condition.exists_index (i : Fin 11) : ∃ c ∈ Condition.all, c.index = i := by
  revert i
  decide

theorem State.nextOwed_of_lowest (owed : s.notices[c.index].owed = true)
    (lowest : ∀ c' : Condition, c'.index < c.index → s.notices[c'.index].owed = false) : s.nextOwed = some c := by
  rw [State.nextOwed, c.all_split, List.find?_append, List.find?_eq_none.mpr, Option.none_or]
  · exact List.find?_cons_of_pos owed
  · intro c' before
    rw [lowest c' (c.index_lt_of_mem_take c' before)]
    exact Bool.false_ne_true

/-! ### Owed frames (R182) -/

theorem queueNotice_owed {p : Vector NoticeCell 11 × LineTransmitter} (owed : p.1[c.index].owed = true)
    (room : p.2.outbound.length < 32) : queueNotice p c =
      (p.1.set c.index { p.1[c.index] with owed := false },
       { p.2 with outbound := p.2.outbound ++ [noticeFrame c p.1[c.index].detail] }) :=
  if_pos ⟨owed, room⟩

/-- Conditions that owe nothing, or that find no place, queue nothing. -/
theorem foldl_queueNotice_idle {p : Vector NoticeCell 11 × LineTransmitter} {conditions : List Condition}
    (idle : 32 ≤ p.2.outbound.length ∨ ∀ c ∈ conditions, p.1[c.index].owed = false) :
    conditions.foldl queueNotice p = p := by
  induction conditions with
  | nil => rfl
  | cons c rest ih =>
    have passed : queueNotice p c = p := by
      refine if_neg fun ⟨owed, room⟩ => ?_
      rcases idle with full | none
      · exact absurd room (Nat.not_lt.mpr full)
      · exact nomatch owed.symm.trans (none c List.mem_cons_self)
    rw [List.foldl_cons, passed]
    exact ih (idle.imp_right fun none c' later => none c' (List.mem_cons_of_mem _ later))

theorem queueOwed_idle (idle : 32 ≤ s.ltx.outbound.length ∨ ∀ i : Fin 11, s.notices[i].owed = false) :
    queueOwed s = s := by
  rw [queueOwed, foldl_queueNotice_idle (idle.imp_right fun none c _ => none c.index)]

/-- The one condition that is owed takes a place. -/
theorem queueOwed_one (room : s.ltx.outbound.length < 32) (owed : s.notices[c.index].owed = true)
    (only : ∀ i : Fin 11, i ≠ c.index → s.notices[i].owed = false) : queueOwed s = { s with
      notices := s.notices.set c.index { s.notices[c.index] with owed := false }
      ltx := { s.ltx with outbound := s.ltx.outbound ++ [noticeFrame c s.notices[c.index].detail] } } := by
  have before : (Condition.all.take c.index).foldl queueNotice (s.notices, s.ltx) = (s.notices, s.ltx) :=
    foldl_queueNotice_idle (.inr fun c' member => only c'.index (c.index_lt_of_mem_take c' member).ne)
  have queued : Condition.all.foldl queueNotice (s.notices, s.ltx) = queueNotice (s.notices, s.ltx) c := by
    rw [c.all_split, List.foldl_append, before, List.foldl_cons, queueNotice_owed owed room]
    refine foldl_queueNotice_idle (.inr fun c' member => ?_)
    have apart := c.index_ne_of_mem_drop c' member
    have apart' : (c.index : Nat) ≠ c'.index := fun same => apart (Fin.ext same.symm)
    simpa [Vector.getElem_set, apart'] using only c'.index apart
  rw [queueOwed, queued, queueNotice_owed owed room]

/-! ### Who waits (R169, R170) -/

theorem RequestKind.ofByte_byte (kind : RequestKind) : RequestKind.ofByte kind.byte = some kind := by
  cases kind <;> rfl

theorem RequestKind.ofByte_eq_some_iff {b : Byte} {kind : RequestKind} :
    RequestKind.ofByte b = some kind ↔ b = kind.byte :=
  ⟨RequestKind.byte_of_ofByte, fun h => h ▸ kind.ofByte_byte⟩

/-- R169: a MEAS is always served; a LOT_ABORT needs two places, and any other frame one, behind no urgent reply. -/
theorem headServed_iff (f : InFrame) (s : State) : headServed f s = true ↔
    f.kind = RequestKind.meas.byte ∨
      (s.lrx.urgent = [] ∧ s.ltx.outbound.length ≤ if f.kind = RequestKind.lotAbort.byte then 30 else 31) := by
  simp only [← RequestKind.ofByte_eq_some_iff, headServed]
  split <;> simp_all

theorem State.headWaits_iff (s : State) :
    s.headWaits = true ↔ ∃ f rest, s.lrx.inbound = f :: rest ∧ headServed f s = false := by
  unfold State.headWaits
  cases s.lrx.inbound <;> simp

theorem State.producerWaits_iff (s : State) : s.producerWaits = true ↔
    s.lrx.urgent ≠ [] ∨ (∃ f rest, s.lrx.inbound = f :: rest ∧ headServed f s = false) ∨
      (s.stage = some .summary ∧ s.sup.engine = .clearing) := by
  simp [State.producerWaits, State.headWaits_iff, or_assoc]

/-! ### The end of an event (R182) -/

theorem finishLine_of_waits (waits : s.producerWaits = true) : finishLine s = startTransmission s := by
  rw [finishLine, queueOwedInEvent, if_pos waits]

theorem finishLine_of_idle (idle : 32 ≤ s.ltx.outbound.length ∨ ∀ i : Fin 11, s.notices[i].owed = false) :
    finishLine s = startTransmission s := by
  rw [finishLine, queueOwedInEvent, queueOwed_idle idle, ite_self]

theorem finishLine_of_owed (free : s.producerWaits = false) : finishLine s = startTransmission (queueOwed s) := by
  rw [finishLine, queueOwedInEvent, if_neg (by simp [free])]

/-! ### The SUMMARY stage closes the lot (R154, R155) -/

theorem closeLot_sup (kind : EndKind) (s : State) :
    (closeLot kind s).sup = { s.sup with clearance := none, engine := .ready } := rfl

theorem closeLot_tracker (kind : EndKind) (s : State) :
    (closeLot kind s).tracker = { s.tracker with ring := [], stack := [], checkTimer := none } := rfl

theorem closeLot_outlet (kind : EndKind) (s : State) (n : Fin 16) :
    (closeLot kind s).outlets[n] = { s.outlets[n] with slot := .free, drive := .quiet } := by
  simp [closeLot, stopOutlets]

theorem closeLot_outbound (kind : EndKind) (s : State) : (closeLot kind s).ltx.outbound =
    s.ltx.outbound ++ [{ tag := 0, body := .lotSummary (s.lotSummary kind), flags := none }] := rfl

theorem closeLot_clearDone (kind : EndKind) (s : State) :
    (closeLot kind s).notices[(10 : Fin 11)] = s.notices[(10 : Fin 11)].raised kind.code := by
  simp [closeLot, raiseNotice_get, Condition.index]

theorem RunKind.endKind_eq (kind : RunKind) : kind.endKind = if kind = .ran then .cleared else .abandoned := by
  cases kind <;> rfl

theorem RunKind.endKind_code (kind : RunKind) : kind.endKind.code = if kind = .ran then 0 else 1 := by
  cases kind <;> rfl

end

/-! ### Notice requests (R178) -/

section

variable {s : State} {f : InFrame} {rest : List InFrame} {set : Nat}

theorem exec_noticeAck (h : Serves s .noticeAck f rest) :
    exec .noticeAck s = .next (finishLine (serveNoticeAck f (setInbound rest s))) :=
  serveRow_of_serves h serveNoticeAck

theorem exec_noticeMask (h : Serves s .noticeMask f rest) :
    exec .noticeMask s = .next (finishLine (serveNoticeMask f (setInbound rest s))) :=
  serveRow_of_serves h serveNoticeMask

theorem serveNoticeAck_done (small : set < 2048) (payload : f.payload = bytesOf 2 set) (s : State) :
    serveNoticeAck f s = reply f .done (bytesOf 2 s.pendingWord) (ackNotices set s) := by
  have named : field f.payload 0 2 = set := by rw [payload, field_bytesOf_two (by omega)]
  have good : badSet set = false := decide_eq_false (by omega)
  rw [serveNoticeAck, named, good, if_neg (by simp [payload, bytesOf_length]), if_neg (by simp)]

theorem serveNoticeMask_done (small : set < 2048) (payload : f.payload = bytesOf 2 set) (s : State) :
    serveNoticeMask f s = reply f .done (bytesOf 2 s.maskWord) (maskNotices set s) := by
  have named : field f.payload 0 2 = set := by rw [payload, field_bytesOf_two (by omega)]
  have good : badSet set = false := decide_eq_false (by omega)
  rw [serveNoticeMask, named, good, if_neg (by simp [payload, bytesOf_length]), if_neg (by simp)]

theorem ackNotices_get (set : Nat) (s : State) (i : Fin 11) : (ackNotices set s).notices[i] =
    if set.testBit i then { s.notices[i] with pending := false, owed := false } else s.notices[i] :=
  Vector.getElem_ofFn _

theorem maskNotices_get (set : Nat) (s : State) (i : Fin 11) :
    (maskNotices set s).notices[i] = s.notices[i].withMask (set.testBit i) :=
  Vector.getElem_ofFn _

/-- R183: ATTN, by the condition numbers. -/
theorem State.attn_iff (s : State) : s.attn = true ↔
    s.held = false ∧ ∃ i : Fin 11, s.notices[i].pending = true ∧ s.notices[i].masked = false := by
  simp only [State.attn, Bool.and_eq_true, Bool.not_eq_true', List.any_eq_true]
  refine and_congr_right fun _ => ⟨fun ⟨c, _, shown⟩ => ⟨c.index, shown⟩, fun ⟨i, shown⟩ => ?_⟩
  obtain ⟨c, member, rfl⟩ := Condition.exists_index i
  exact ⟨c, member, shown⟩

end

/-- Settles O53: a raising is one cell's change, ATTN reads the cells, and each request answers with the set that it found. -/
theorem noticeFlagsAndAttnFollow : Obligations.NoticeFlagsAndAttnFollow := by
  refine ⟨fun _ _ _ => rfl, fun _ _ => rfl, State.attn_iff, fun s f rest set small payload =>
    ⟨fun serves => ?_, fun serves => ?_⟩⟩
  · rw [exec_noticeAck serves, serveNoticeAck_done small payload, serves.reply_eq_answer]
    exact ⟨_, rfl, ackNotices_get set (setInbound rest s), rfl, rfl, rfl, rfl, rfl⟩
  · rw [exec_noticeMask serves, serveNoticeMask_done small payload, serves.reply_eq_answer]
    exact ⟨_, rfl, maskNotices_get set (setInbound rest s), rfl, rfl, rfl, rfl, rfl⟩

/-- Settles O56: each producer with its place, who waits for one, and what the end of an event does about an owed notice. -/
theorem waitingProducersTakePlaces : Obligations.WaitingProducersTakePlaces := by
  refine ⟨fun s running room => ⟨fun r waiting urgent => ?_, fun c free owed lowest => ?_⟩, headServed_iff,
    State.producerWaits_iff, fun s => ⟨fun idle => ?_, fun c free room owed only => ?_⟩, fun _ _ => rfl,
    fun s c running clearance stage clearing room => ?_⟩
  · have admitted : onUrgentReply s = finishLine { s with
        lrx := { s.lrx with urgent := waiting }, ltx := { s.ltx with outbound := s.ltx.outbound ++ [r] } } := by
      rw [onUrgentReply, urgent]
      exact if_pos room
    rw [← admitted]
    simp [exec, execUrgentReply, whenRunning, running]
  · have queued : onNotice s = startTransmission { s with
        notices := (queueNotice (s.notices, s.ltx) c).1, ltx := (queueNotice (s.notices, s.ltx) c).2 } := by
      rw [onNotice, State.nextOwed_of_lowest owed lowest]
      exact if_pos free
    rw [queueNotice_owed owed room] at queued
    simp only [exec, execNotice, whenRunning, running, queued]
    rfl
  · rcases idle with waits | idle
    · exact finishLine_of_waits waits
    · exact finishLine_of_idle idle
  · rw [finishLine_of_owed free, queueOwed_one room owed only]
    rfl
  · have closes : s.closeKind = some c.kind.endKind :=
      State.closeKind_eq_some_iff.mpr ⟨c, clearance, stage, clearing, room, rfl⟩
    have closed : onSummaryStage s = finishLine (closeLot c.kind.endKind s) := by
      simp [onSummaryStage, summaryStep, closes]
    refine ⟨closeLot c.kind.endKind s, ?_, closeLot_sup .., closeLot_tracker .., closeLot_outlet _ s, ?_, ?_⟩
    · simp [exec, execSummaryStage, whenRunning, running, closed]
    · rw [closeLot_outbound, RunKind.endKind_eq]
    · rw [closeLot_clearDone, RunKind.endKind_code]

end Sys2Proof.Machine

/-! CLEAR_FAULT (R138, R156): the fault record block (R173), the return from HALTED, and the close of a lot whose SUMMARY
stage waited. -/

namespace Sys2Proof.Machine

section

variable {s : State}

/-! ### The fault record block (R173) -/

theorem FaultEntry.bytes_length (e : FaultEntry) {free : List Byte} (four : free.length = 4) : (e.bytes free).length = 7 := by
  cases seq : e.seq <;> simp [FaultEntry.bytes, optional4, seq, bytesOf_length, four]

theorem State.faultEntryBytes_length (s : State) (k : Nat) (entries : List FaultEntry) :
    (s.faultEntryBytes k entries).length = 7 * entries.length := by
  induction entries generalizing k with
  | nil => rfl
  | cons e rest ih =>
    have free : (s.unstatedBytes k 4).length = 4 := bytesOf_length ..
    rw [State.faultEntryBytes, List.length_append, e.bytes_length free, ih, List.length_cons]
    omega

theorem State.faultBlock_length (s : State) : s.faultBlock.length =
    2 + 7 * ((if s.sup.faults.first.isSome then 1 else 0) + s.sup.faults.later.length) := by
  have entries : s.sup.faults.entries.length
      = (if s.sup.faults.first.isSome then 1 else 0) + s.sup.faults.later.length := by
    rw [FaultRecord.entries, List.length_append]
    cases s.sup.faults.first <;> rfl
  rw [State.faultBlock, List.length_append, s.faultEntryBytes_length, entries, List.length_cons, bytesOf_length]

theorem State.faultEntryBytes_congr {t : State} (unstated : t.unstated = s.unstated) (k : Nat) (entries : List FaultEntry) :
    t.faultEntryBytes k entries = s.faultEntryBytes k entries := by
  induction entries generalizing k with
  | nil => rfl
  | cons e rest ih => simp only [State.faultEntryBytes, State.unstatedBytes, unstated, ih]

theorem setInbound_faultBlock (frames : List InFrame) (s : State) : (setInbound frames s).faultBlock = s.faultBlock := by
  rw [State.faultBlock, State.faultBlock, setInbound_sup, State.faultEntryBytes_congr (setInbound_unstated frames s)]

/-! ### The return from HALTED (R138) -/

/-- The engine state that a lot returns to. -/
def RunState.engine : RunState → EngineState
  | .sorting => .sorting
  | .clearing => .clearing

theorem leaveHalted_eq {ret : RunState} (returns : s.sup.returnState = some ret) : leaveHalted s = { s with
    sup := { s.sup with engine := ret.engine, returnState := none, faults := .empty } } := by
  rw [leaveHalted, returns]
  cases ret <;> rfl

theorem summaryStep_of_none (stays : s.closeKind = none) : summaryStep s = s := by
  rw [summaryStep, stays]

theorem summaryStep_of_some {kind : EndKind} (closes : s.closeKind = some kind) : summaryStep s = closeLot kind s := by
  rw [summaryStep, closes]

end

section

variable {s : State} {f : InFrame} {rest : List InFrame}

theorem exec_clearFault (h : Serves s .clearFault f rest) :
    exec .clearFault s = .next (finishLine (serveClearFault f (setInbound rest s))) :=
  serveRow_of_serves h serveClearFault

theorem serveClearFault_refused (empty : f.payload = []) (running : s.sup.engine ≠ .halted) :
    serveClearFault f s = reply f .refusedState [] s := by
  rw [serveClearFault, if_neg (by simp [empty]), if_pos running]

theorem serveClearFault_active (empty : f.payload = []) (halted : s.sup.engine = .halted) (jam : s.jam = true) :
    serveClearFault f s = drawUnstated (reply f .stillActive s.faultBlock s) := by
  rw [serveClearFault, if_neg (by simp [empty]), if_neg (not_not.mpr halted), if_pos jam]

/-- The state after the reply to a CLEAR_FAULT that is taken, before its SUMMARY stage is tested. -/
def clearedFault (f : InFrame) (ret : RunState) (s : State) : State :=
  answer f 0x34 .done (s.faultBlock ++ [BitVec.ofNat 8 ret.code]) { s with
    unstated := s.unstated + 16
    sup := { s.sup with engine := ret.engine, returnState := none, faults := .empty } }

theorem serveClearFault_done {ret : RunState} (kind : f.kind = RequestKind.clearFault.byte) (empty : f.payload = [])
    (halted : s.sup.engine = .halted) (jam : s.jam = false) (returns : s.sup.returnState = some ret) :
    serveClearFault f s = summaryStep (clearedFault f ret s) := by
  have code : bytesOf 1 ret.engine.code = [BitVec.ofNat 8 ret.code] := by cases ret <;> rfl
  rw [serveClearFault, if_neg (by simp [empty]), if_neg (not_not.mpr halted), if_neg (by simp [jam]),
    leaveHalted_eq returns]
  dsimp only
  rw [code, reply_eq_answer kind]
  rfl

/-- R154, R156: the lot closes within the request when its SUMMARY stage waited and the reply has left a place. -/
theorem clearedFault_closeKind_iff {ret : RunState} {kind : EndKind} : (clearedFault f ret s).closeKind = some kind ↔
    ∃ c, s.sup.clearance = some c ∧ c.stage = .summary ∧ ret = .clearing ∧ s.ltx.outbound.length < 31
      ∧ c.kind.endKind = kind := by
  have room : s.ltx.outbound.length + 1 < 32 ↔ s.ltx.outbound.length < 31 := Nat.succ_lt_succ_iff
  rw [State.closeKind_eq_some_iff]
  cases ret <;> simp [clearedFault, answer, RunState.engine, Config.outboundLimit, room]

end

/-- Settles O52: the request is refused, finds JAM active, or is taken; then its SUMMARY stage stays or closes the lot. -/
theorem clearFaultResumes : Obligations.ClearFaultResumes := by
  intro s f rest serves empty
  have kind := RequestKind.byte_of_ofByte serves.isKind
  have block := setInbound_faultBlock rest s
  have taken (ret : RunState) (halted : s.sup.engine = .halted) (jam : s.jam = false)
      (returns : s.sup.returnState = some ret) :
      exec .clearFault s = .next (finishLine (summaryStep (clearedFault f ret (setInbound rest s)))) := by
    rw [exec_clearFault serves, serveClearFault_done (s := setInbound rest s) kind empty halted jam returns]
  refine ⟨s.faultBlock_length, fun ret halted jam returns stays => ?_, fun c halted jam returns clearance stage room => ?_,
    fun halted jam => ?_, fun running => ?_⟩
  · have unclosed : (clearedFault f ret (setInbound rest s)).closeKind = none := by
      refine Option.eq_none_iff_forall_ne_some.mpr fun kind closes => ?_
      obtain ⟨c, clearance, stage, clearing, room, -⟩ := clearedFault_closeKind_iff.mp closes
      rw [setInbound_sup] at clearance
      rw [setInbound_ltx] at room
      rcases stays with other | sorting | full
      · exact other (by rw [State.stage, clearance, Option.map_some, stage])
      · simp [sorting] at clearing
      · omega
    rw [taken ret halted jam returns, summaryStep_of_none unclosed]
    refine ⟨_, rfl, ?_⟩
    rw [clearedFault, block]
    cases ret <;> rfl
  · have closes : (clearedFault f .clearing (setInbound rest s)).closeKind = some c.kind.endKind :=
      clearedFault_closeKind_iff.mpr ⟨c, clearance, stage, rfl, Nat.lt_succ_of_le room, rfl⟩
    rw [taken .clearing halted jam returns, summaryStep_of_some closes]
    refine ⟨_, rfl, closeLot_sup .., closeLot_tracker .., closeLot_outlet _ _, ?_, ?_, closeLot_tables ..⟩
    · rw [closeLot_outbound, clearedFault, block, RunKind.endKind_eq]
      simp only [answer, List.append_assoc, List.singleton_append]
      rfl
    · rw [closeLot_clearDone, RunKind.endKind_code]
      rfl
  · rw [exec_clearFault serves, serveClearFault_active (s := setInbound rest s) empty halted jam, block, reply_eq_answer kind]
    exact ⟨_, rfl, rfl⟩
  · rw [exec_clearFault serves, serveClearFault_refused (s := setInbound rest s) empty running, reply_eq_answer kind]
    rfl

end Sys2Proof.Machine

/-! Full resets, HALT and JAM (R135, R136, R140 to R142, R166): what a held engine leaves alone, and what a fault does by the
engine state it finds. -/

namespace Sys2Proof.Machine

section

variable {s : State}

/-! ### A held engine (R142) -/

theorem whenRunning_of_held (held : s.held = true) (f : State → State) : whenRunning f s = s := if_pos held

theorem whenRunning_of_running (running : s.held = false) (f : State → State) : whenRunning f s = f s :=
  if_neg (by simp [running])

theorem beginHold_of_held (held : s.held = true) (cause : ResetCause) : beginHold cause s = s := if_pos held

theorem beginHold_of_running (running : s.held = false) (cause : ResetCause) :
    beginHold cause s = fullReset cause true s.rate s.lrx.nodeAddress s := if_neg (by simp [running])

theorem exec_fullReset {c : Instr} {cause : ResetCause}
    (row : (c, cause) ∈ [(Instr.powerOn, ResetCause.powerOn), (.supplyLow, .supplyLow), (.external, .external)]) (s : State) :
    exec c s = .next (beginHold cause s) := by
  simp only [List.mem_cons, List.not_mem_nil, or_false, Prod.mk.injEq] at row
  obtain ⟨rfl, rfl⟩ | ⟨rfl, rfl⟩ | ⟨rfl, rfl⟩ := row <;> rfl

theorem attn_of_held (held : s.held = true) : s.attn = false := by simp [State.attn, held]

theorem fullReset_ej (cause : ResetCause) (held : Bool) (rate : BitRate) (address : Option (Fin 4)) (s : State) (n : Fin 16) :
    (fullReset cause held rate address s).ej n = false := by
  simp [State.ej, fullReset, Outlet.afterReset, Drive.active]

/-- Every command but the end of the hold leaves a held engine alone, the level of JAM aside (R142, log 28). -/
theorem exec_of_held (held : s.held = true) (c : Instr) (stays : ∀ r1 r0 a1 a0, c ≠ .resetHoldEnd r1 r0 a1 a0) :
    Completes (exec c s) fun t => t = { s with jam := t.jam } := by
  cases c
  case resetHoldEnd r1 r0 a1 a0 => exact absurd rfl (stays r1 r0 a1 a0)
  case jamRise => exact ⟨_, congrArg Host.Outcome.next (whenRunning_of_held (s := { s with jam := true }) held _), rfl⟩
  case jamFall => exact ⟨_, congrArg Host.Outcome.next (whenRunning_of_held (s := { s with jam := false }) held _), rfl⟩
  all_goals exact ⟨s, congrArg Host.Outcome.next (whenRunning_of_held held _), rfl⟩

/-! ### A fault, by the engine state (R135, R136) -/

theorem raiseFault_of_noLot (noLot : s.lotOpen = false) (code : FaultCode) (pocket : Nat) (seq : Option Nat) :
    raiseFault code pocket seq s = s := by
  unfold State.lotOpen at noLot
  unfold raiseFault
  cases engine : s.sup.engine <;> simp_all

/-- The return state of a first fault in SORTING or CLEARING. -/
def State.returnOfFault (s : State) : RunState := if s.sup.engine = .sorting then .sorting else .clearing

theorem raiseFault_of_firesAllowed (fires : s.firesAllowed = true) (code : FaultCode) (pocket : Nat) (seq : Option Nat) :
    raiseFault code pocket seq s = enterHalted s.returnOfFault { code := code, loadPocket := pocket, seq := seq } s := by
  unfold State.firesAllowed at fires
  unfold raiseFault State.returnOfFault
  cases engine : s.sup.engine <;> simp_all

theorem raiseFault_of_halted (halted : s.sup.engine = .halted) (code : FaultCode) (pocket : Nat) (seq : Option Nat) :
    raiseFault code pocket seq s = { s with
      sup := { s.sup with faults := s.sup.faults.append { code := code, loadPocket := pocket, seq := seq } } } := by
  rw [raiseFault, halted]

theorem FaultRecord.append_of_room {faults : FaultRecord} (room : faults.later.length < 4) (e : FaultEntry) :
    faults.append e = { faults with later := faults.later ++ [e] } := if_pos room

theorem FaultRecord.append_of_full {faults : FaultRecord} (full : 4 ≤ faults.later.length) (e : FaultEntry) :
    faults.append e = { faults with overflow := true } := if_neg (Nat.not_lt.mpr full)

theorem enterHalted_sup (ret : RunState) (e : FaultEntry) (s : State) : (enterHalted ret e s).sup = { s.sup with
    engine := .halted, returnState := some ret, faults := { s.sup.faults with first := some e } } := rfl

theorem enterHalted_outlet (ret : RunState) (e : FaultEntry) (s : State) (n : Fin 16) :
    (enterHalted ret e s).outlets[n] = { s.outlets[n] with slot := .free } := by
  simp [enterHalted, endSlots]

theorem enterHalted_notice (ret : RunState) (e : FaultEntry) (s : State) :
    (enterHalted ret e s).notices[(1 : Fin 11)] = s.notices[(1 : Fin 11)].raised e.code.code := by
  simp [enterHalted, raiseNotice_get, Condition.index]

/-! ### HALT and its reply (R141, R166) -/

/-- R141: without a lot the fault HALT_REQUEST is no fault. -/
theorem takeHalt_eq (tag : Byte) (s : State) : takeHalt tag s =
    offerHaltReply tag (if s.lotOpen then .done else .refusedState) (raiseFault .haltRequest s.faultPocket none s) := by
  unfold takeHalt
  cases lot : s.lotOpen with
  | true => rfl
  | false => rw [raiseFault_of_noLot lot]; rfl

theorem exec_halt (running : s.held = false) (tag : Byte) :
    exec (.halt tag) s = .next (finishLine (takeHalt tag s)) :=
  congrArg Host.Outcome.next (whenRunning_of_running running _)

/-- The REPLY to a HALT (R141, R172). -/
def haltReply (tag : Byte) (result : ResultCode) : OutFrame :=
  { tag := tag, body := .reply kindHalt result [], flags := none }

theorem offerHaltReply_admitted (room : s.ltx.outbound.length < 32) (first : s.lrx.urgent = []) (tag : Byte)
    (result : ResultCode) : offerHaltReply tag result s =
      { s with ltx := { s.ltx with outbound := s.ltx.outbound ++ [haltReply tag result] } } :=
  if_pos ⟨room, first⟩

theorem offerHaltReply_waits (behind : 32 ≤ s.ltx.outbound.length ∨ s.lrx.urgent ≠ []) (place : s.lrx.urgent.length < 4)
    (tag : Byte) (result : ResultCode) : offerHaltReply tag result s =
      { s with lrx := { s.lrx with urgent := s.lrx.urgent ++ [haltReply tag result] } } := by
  rw [offerHaltReply, if_neg fun test => behind.elim (Nat.not_le.mpr test.1) (absurd test.2)]
  exact if_pos place

theorem offerHaltReply_dropped (behind : 32 ≤ s.ltx.outbound.length ∨ s.lrx.urgent ≠ []) (full : 4 ≤ s.lrx.urgent.length)
    (tag : Byte) (result : ResultCode) : offerHaltReply tag result s = { s with ltx := { s.ltx with overrun := true } } := by
  rw [offerHaltReply, if_neg fun test => behind.elim (Nat.not_le.mpr test.1) (absurd test.2)]
  exact if_neg (Nat.not_lt.mpr full)

end

/-- Settles O11: a full reset's condition puts a running engine in its reset state and finds nothing to do in a held one; no
other command but the end of the hold reaches a held engine. -/
theorem fullResetHoldsEngine : Obligations.FullResetHoldsEngine := by
  refine ⟨fun s c cause row => ⟨fun held => ?_, fun running => ?_⟩, fun c s held stays => exec_of_held held c stays⟩
  · rw [exec_fullReset row, beginHold_of_held held]
  · rw [exec_fullReset row, beginHold_of_running running]
    exact ⟨_, rfl, rfl, rfl, rfl, attn_of_held rfl, rfl, fullReset_ej _ _ _ _ s⟩

/-- Settles O14: the fault is raised by the engine state, and the reply goes its way by the places of the line, which the
fault does not touch. -/
theorem haltTakesEffectAtOnce : Obligations.HaltTakesEffectAtOnce := by
  intro tag s running
  have ltx := raiseFault_ltx .haltRequest s.faultPocket none s
  have lrx := raiseFault_lrx .haltRequest s.faultPocket none s
  rw [exec_halt running, takeHalt_eq]
  refine ⟨_, rfl, haltReply tag (if s.lotOpen then .done else .refusedState), rfl, fun room first => ?_,
    fun behind place => ?_, fun behind full => ?_, by simp, by simp, by simp, fun noLot => ?_, fun halted => ?_,
    fun fires => ?_⟩
  · rw [← ltx] at room
    rw [← lrx] at first
    rw [offerHaltReply_admitted room first, ← ltx]
    exact ⟨rfl, lrx⟩
  · rw [← ltx, ← lrx] at behind
    rw [← lrx] at place
    rw [offerHaltReply_waits behind place, ← lrx]
    exact ⟨ltx, rfl⟩
  · rw [← ltx, ← lrx] at behind
    rw [← lrx] at full
    rw [offerHaltReply_dropped behind full, ← ltx]
    exact ⟨rfl, lrx⟩
  · rw [offerHaltReply_sup, offerHaltReply_outlets, offerHaltReply_notices, raiseFault_of_noLot noLot]
    exact ⟨rfl, rfl, rfl⟩
  · rw [offerHaltReply_sup, offerHaltReply_outlets, offerHaltReply_notices, raiseFault_of_halted halted]
    refine ⟨rfl, rfl, halted, rfl, FaultRecord.append_first .., fun room => ?_, fun full => ?_⟩
    · rw [FaultRecord.append_of_room room]
      exact ⟨rfl, rfl⟩
    · rw [FaultRecord.append_of_full full]
      exact ⟨rfl, rfl⟩
  · rw [offerHaltReply_sup, offerHaltReply_outlets, offerHaltReply_notices, raiseFault_of_firesAllowed fires, enterHalted_sup]
    refine ⟨rfl, rfl, ?_, enterHalted_outlet _ _ s, enterHalted_notice ..⟩
    exact apply_ite some ..

section

variable {s : State}

/-! ### The JAM line (R140) -/

/-- The state in which a rising edge on JAM has raised its notice (R140). -/
def jamNoticed (time : Nat) (s : State) : State :=
  raiseNotice .jam s.sup.engine.code (advanceTo time { s with jam := true })

theorem jamNoticed_jam (time : Nat) (s : State) :
    (jamNoticed time s).notices[(9 : Fin 11)] = s.notices[(9 : Fin 11)].raised s.sup.engine.code :=
  raiseNotice_get .jam ..

theorem jamNoticed_halted (time : Nat) (s : State) :
    (jamNoticed time s).notices[(1 : Fin 11)] = s.notices[(1 : Fin 11)] :=
  raiseNotice_get .jam ..

theorem exec_jamRise (running : s.held = false) (time : Nat) :
    exec (.jamRise time) s = .next (finishLine (raiseFault .jam s.faultPocket none (jamNoticed time s))) :=
  congrArg Host.Outcome.next (whenRunning_of_running (s := { s with jam := true }) running _)

theorem exec_jamFall (running : s.held = false) (time : Nat) :
    exec (.jamFall time) s = .next (advanceTo time { s with jam := false }) :=
  congrArg Host.Outcome.next (whenRunning_of_running (s := { s with jam := false }) running _)

end

/-- Settles O15: the notice is raised whatever the engine state, and the fault by the engine state. -/
theorem jamEdgesAreTaken : Obligations.JamEdgesAreTaken := by
  intro time s running
  refine ⟨exec_jamFall running time, ?_⟩
  rw [exec_jamRise running]
  refine ⟨_, rfl, by rw [raiseFault_jam]; rfl, by rw [raiseFault_now]; rfl, by rw [raiseFault_tracker]; rfl,
    by rw [raiseFault_ltx]; rfl, ?_, fun noLot => ?_, fun fires => ?_, fun halted => ?_⟩
  · rw [raiseFault_notice _ _ _ _ (by decide), jamNoticed_jam]
  · rw [raiseFault_of_noLot (s := jamNoticed time s) noLot]
    exact ⟨rfl, rfl⟩
  · rw [raiseFault_of_firesAllowed (s := jamNoticed time s) fires, enterHalted_sup, enterHalted_notice,
      jamNoticed_halted]
    exact ⟨rfl, rfl, apply_ite some .., enterHalted_outlet _ _ (jamNoticed time s), rfl⟩
  · rw [raiseFault_of_halted (s := jamNoticed time s) halted]
    exact ⟨rfl, halted, rfl, rfl⟩

end Sys2Proof.Machine

/-! Good frames that do not join the inbound queue (R160, R164 to R166): a frame for another node is ignored, an urgent one
acts or is rejected, and a broadcast MEAS is discarded. -/

namespace Sys2Proof.Machine

section

variable {s t : State}

/-! ### A whole frame (R161, R165) -/

theorem frameBytes_length (dest kind tag : Byte) (payload : List Byte) :
    (frameBytes dest kind tag payload).length = 7 + payload.length := by
  simp [frameBytes, bytesOf_length]
  omega

theorem frameBytes_len {payload : List Byte} (within : payload.length ≤ 56) (dest kind tag : Byte) :
    field (frameBytes dest kind tag payload) 4 1 = payload.length := by
  rw [field_len, frameBytes_length, if_neg (by omega)]
  simp [frameBytes]
  omega

theorem goodCrc_frameBytes {payload : List Byte} (within : payload.length ≤ 56) (dest kind tag : Byte) :
    goodCrc (frameBytes dest kind tag payload) = true := by
  have covered : slice (frameBytes dest kind tag payload) 1 (4 + payload.length)
      = dest :: kind :: tag :: BitVec.ofNat 8 payload.length :: payload := by
    simp [frameBytes, slice, Nat.add_comm 4]
  have sent : field (frameBytes dest kind tag payload) (5 + payload.length) 2
      = field (bytesOf 2 (frameCrc (dest :: kind :: tag :: BitVec.ofNat 8 payload.length :: payload)).toNat) 0 2 := by
    simp [frameBytes, field, slice, Nat.add_comm 5]
  rw [goodCrc, frameBytes_len within, covered, sent, decide_eq_true_iff]
  exact field_bytesOf_two (BitVec.isLt _)

theorem ofBytes_frameBytes {payload : List Byte} (within : payload.length ≤ 56) (dest kind tag : Byte) :
    InFrame.ofBytes (frameBytes dest kind tag payload) = { dest := dest, kind := kind, tag := tag, payload := payload } := by
  have taken : slice (frameBytes dest kind tag payload) 5 payload.length = payload := by simp [frameBytes, slice]
  rw [InFrame.ofBytes, frameBytes_len within, taken]
  rfl

/-- R165: a frame whose last CRC byte is good is kept or ignored by its DEST. -/
theorem extendFrame_good {payload : List Byte} (within : payload.length ≤ 56) (dest kind tag : Byte) (s : State) :
    extendFrame (frameBytes dest kind tag payload) s =
      if InFrame.keptBy { dest := dest, kind := kind, tag := tag, payload := payload } s.lrx.nodeAddress then
        acceptKept { dest := dest, kind := kind, tag := tag, payload := payload } (frameBytes dest kind tag payload)
          (setAssembler .hunt s)
      else (setAssembler .hunt s, .again []) := by
  have len := frameBytes_len within dest kind tag
  have short : ¬ ((frameBytes dest kind tag payload).length = 5
      ∧ Config.maxInboundLen < field (frameBytes dest kind tag payload) 4 1) := by
    rw [frameBytes_length]
    omega
  rw [extendFrame, if_neg short, if_pos (by rw [len, frameBytes_length]), completeFrame,
    if_neg (by simp [goodCrc_frameBytes within]), ofBytes_frameBytes within]

theorem keptBy_assigned {f : InFrame} {a : Fin 4} (named : f.dest = BitVec.ofNat 8 a.val ∨ f.dest = 0xFF) :
    f.keptBy (some a) = true := by
  rcases named with named | named <;> simp [InFrame.keptBy, named, Config.broadcast]

theorem not_keptBy {f : InFrame} {address : Option (Fin 4)}
    (other : (∃ a : Fin 4, address = some a ∧ f.dest ≠ BitVec.ofNat 8 a.val ∧ f.dest ≠ 0xFF) ∨
      (address = none ∧ ¬ (f.dest = 0xFF ∧ f.kind = 0x42))) : ¬ f.keptBy address = true := by
  rcases other with ⟨a, rfl, dest, broadcast⟩ | ⟨rfl, other⟩
  · simpa [InFrame.keptBy, Config.broadcast, dest] using broadcast
  · simpa [InFrame.keptBy, Config.broadcast, kindNodeAssign] using other

/-! ### What becomes of a kept frame (R165) -/

section

variable {f : InFrame} (held : List Byte)

theorem acceptKept_halt (kind : f.kind = kindHalt) (empty : f.payload = []) (s : State) :
    acceptKept f held s = (takeHalt f.tag s, .again []) := by
  simp [acceptKept, kind, empty]

theorem acceptKept_coreReset (kind : f.kind = kindCoreReset) (empty : f.payload = []) (s : State) :
    acceptKept f held s = (coreReset s, .drop) := by
  have notHalt : f.kind ≠ kindHalt := by rw [kind]; decide
  simp [acceptKept, kind, empty, kind ▸ notHalt]

/-- R165: an urgent frame whose LEN is not 0 is rejected (log 8). -/
theorem acceptKept_length (kind : f.kind = kindHalt ∨ f.kind = kindCoreReset) (some_ : f.payload ≠ []) (s : State) :
    acceptKept f held s = rejectHeld .length held s := by
  rw [acceptKept, if_pos kind, if_pos some_]

theorem acceptKept_broadcastMeas (kind : f.kind = kindMeas) (dest : f.dest = Config.broadcast) (s : State) :
    acceptKept f held s = (discard .broadcast s, .again []) := by
  have notUrgent : ¬ (f.kind = kindHalt ∨ f.kind = kindCoreReset) := by rw [kind]; decide
  rw [acceptKept, if_neg notUrgent, if_pos ⟨kind, dest⟩]

end

/-! ### The end of a reception -/

theorem onChar_of_again {b : Byte} (taken : takeChar b (markChar s) = (t, .again [])) : onChar b s = finishReception t := by
  rw [onChar, search_char taken, takeChars_nil]

theorem onChar_of_drop {b : Byte} (taken : takeChar b (markChar s) = (t, .drop)) : onChar b s = finishReception t := by
  obtain ⟨more, fuel⟩ : ∃ more, searchFuel ([b].length + (markChar s).lrx.assembler.held.length) = more + 1 :=
    Nat.exists_eq_add_one.mpr (by unfold searchFuel; positivity)
  rw [onChar, search, fuel]
  simp only [takeChars, taken]

theorem raiseFault_timeGap (code : FaultCode) (pocket : Nat) (seq : Option Nat) (s : State) :
    raiseFault code pocket seq (timeGap s) = timeGap (raiseFault code pocket seq s) := by
  unfold raiseFault
  rw [timeGap_sup]
  cases s.sup.engine <;> rfl

theorem offerHaltReply_timeGap (tag : Byte) (result : ResultCode) (s : State) :
    offerHaltReply tag result (timeGap s) = timeGap (offerHaltReply tag result s) := by
  unfold offerHaltReply
  rw [apply_ite timeGap, apply_ite timeGap]
  rfl

/-- A HALT leaves the assembler and its timer alone (log 6). -/
theorem takeHalt_timeGap (tag : Byte) (s : State) : takeHalt tag (timeGap s) = timeGap (takeHalt tag s) := by
  have lot : (timeGap s).lotOpen = s.lotOpen := rfl
  have pocket : (timeGap s).faultPocket = s.faultPocket := rfl
  rw [takeHalt_eq, takeHalt_eq, lot, pocket, raiseFault_timeGap, offerHaltReply_timeGap]

theorem startTransmission_startTransmission (s : State) : startTransmission (startTransmission s) = startTransmission s := by
  cases txd : s.ltx.txd with
  | idle since =>
    cases queue : s.ltx.outbound with
    | nil =>
      have none : startTransmission s = s := by simp [startTransmission, LineTransmitter.start, txd, queue]
      rw [none, none]
    | cons f rest => exact startTransmission_busy (by simp [startTransmission, LineTransmitter.start, txd, queue])
  | sending began ends =>
    have busy := startTransmission_busy (s := s) (by simp [txd])
    rw [busy, busy]
  | cut ends =>
    have busy := startTransmission_busy (s := s) (by simp [txd])
    rw [busy, busy]

/-- R143, R184: a CORE_RESET leaves nothing owed and TXD as busy as it can be. -/
theorem finishReception_coreReset (s : State) : finishReception (coreReset s) = coreReset s := by
  have reset : timeGap (coreReset s) = coreReset s := rfl
  have none (i : Fin 11) : (coreReset s).notices[i].owed = false := by
    change (noticesAfterReset .link)[i].owed = false
    revert i
    decide
  rw [finishReception, reset, finishLine_of_idle (.inr none), coreReset, announceStart, startTransmission_startTransmission]

theorem exec_coreReset (running : s.held = false) : exec .coreReset s = .next (coreReset s) :=
  congrArg Host.Outcome.next (whenRunning_of_running running _)

end

/-- Settles O59: the last CRC byte completes a good frame, which the node keeps or not; a kept frame acts by its KIND. -/
theorem goodFrameIsActedOnOrSetAside : Obligations.GoodFrameIsActedOnOrSetAside := by
  intro time b s dest kind tag payload frame running within at_ inTime whole
  have arrives : exec (.frameComplete time b) s = .next (onChar b (advanceTo time s)) := by
    rw [exec_frameComplete running, charEndsAt_inTime inTime]
  have taken := takeChar_frame (s := markChar (advanceTo time s)) at_ b
  have extended := extendFrame_good within dest kind tag (markChar (advanceTo time s))
  rw [whole, extended] at taken
  rw [arrives]
  refine ⟨fun other => ?_, fun a address named => ?_⟩
  · rw [if_neg (not_keptBy other)] at taken
    rw [onChar_of_taken taken]
    rfl
  · have kept : InFrame.keptBy { dest := dest, kind := kind, tag := tag, payload := payload }
        (markChar (advanceTo time s)).lrx.nodeAddress = true := address ▸ keptBy_assigned named
    rw [if_pos kept] at taken extended
    refine ⟨fun halt empty => ?_, fun reset empty => ?_, fun urgent some_ noSync => ?_, fun meas broadcast => ?_⟩
    · rw [acceptKept_halt _ halt empty] at taken
      rw [onChar_of_again taken, finishReception, ← takeHalt_timeGap, exec_halt (s := s.hunting time) running]
      rfl
    · rw [acceptKept_coreReset _ reset empty] at taken
      rw [onChar_of_drop taken, finishReception_coreReset, exec_coreReset (s := s.hunting time) running]
      rfl
    · have begun : frame ≠ [] := by
        rintro rfl
        have length := congrArg List.length whole
        rw [frameBytes_length, List.nil_append, List.length_singleton] at length
        omega
      rw [List.tail_append_of_ne_nil begun] at noSync
      rw [acceptKept_length _ urgent some_] at extended
      rw [onChar_of_rejected (s := advanceTo time s) at_ (.inl ⟨rfl, noSync⟩) begun (whole ▸ extended)]
      exact ⟨_, rfl, rfl, rfl, rfl, rfl, raiseNotice_get .linkError ..⟩
    · rw [acceptKept_broadcastMeas _ meas broadcast] at taken
      rw [onChar_of_again taken]
      exact ⟨_, rfl, rfl, rfl, rfl, rfl, raiseNotice_get .measDiscarded ..⟩

end Sys2Proof.Machine

/-! Clearance: the index count with its bound, and the stage tests that lead to the close of the lot (R149 to R154). -/

namespace Sys2Proof.Machine

section

variable {s : State} {c : Clearance}

/-! ### The completion tests (R149, R153) -/

theorem Phase.stands_iff (phase : Phase) :
    phase.stands = true ↔ phase ∈ [Phase.held, .decided, .stranded, .retained] := by
  cases phase <;> decide

theorem PocketRecord.standing_eq_false_iff (r : PocketRecord) :
    r.standing = false ↔ (r.counted = true → r.phase ∉ [Phase.held, .decided, .stranded, .retained]) := by
  rw [← Phase.stands_iff, PocketRecord.standing, Bool.and_eq_false_imp, Bool.not_eq_true]

theorem PocketRecord.holdsRunOut_eq_false_iff (r : PocketRecord) : r.holdsRunOut = false ↔ r.phase ≠ .open ∧
    (r.counted = true → r.phase ∉ [Phase.held, .decided, .stranded, .retained]) := by
  rw [← r.standing_eq_false_iff, PocketRecord.holdsRunOut, Bool.or_eq_false_iff, beq_eq_false_iff_ne]

theorem State.runOutComplete_iff (s : State) : s.runOutComplete = true ↔ ∀ r ∈ s.tracker.ring, r.phase ≠ .open ∧
    (r.counted = true → r.phase ∉ [Phase.held, .decided, .stranded, .retained]) := by
  simp only [State.runOutComplete, List.all_eq_true, Bool.not_eq_true', PocketRecord.holdsRunOut_eq_false_iff]

theorem State.settleComplete_iff_phases (s : State) : s.settleComplete = true ↔ (∀ n : Fin 16, s.outlets[n].queue = []) ∧
    ∀ r ∈ s.tracker.ring, r.counted = true → r.phase ∉ [Phase.held, .decided, .stranded, .retained] := by
  simp only [State.settleComplete_iff, PocketRecord.standing_eq_false_iff]

/-! ### The stage -/

theorem State.stage_of_clearance (clearance : s.sup.clearance = some c) : s.stage = some c.stage := by
  rw [State.stage, clearance, Option.map_some]

theorem State.stage_eq_none_iff : s.stage = none ↔ s.sup.clearance = none := Option.map_eq_none_iff

theorem setStage_of_clearance (clearance : s.sup.clearance = some c) (stage : Stage) : setStage stage s =
    { s with sup := { s.sup with clearance := some { c with stage := stage } } } := by
  rw [setStage, clearance, Option.map_some]

/-- A lot that stands in a stage is put in it without effect. -/
theorem setStage_self {stage : Stage} (at_ : s.stage = some stage) : setStage stage s = s := by
  obtain ⟨c, clearance, rfl⟩ := Option.map_eq_some_iff.mp at_
  rw [setStage_of_clearance clearance, ← clearance]

theorem setStage_setStage (stage before : Stage) (s : State) : setStage stage (setStage before s) = setStage stage s := by
  simp only [setStage, Option.map_map]
  rfl

theorem setStage_stage {before : Stage} (at_ : s.stage = some before) (stage : Stage) :
    (setStage stage s).stage = some stage := by
  obtain ⟨c, clearance, rfl⟩ := Option.map_eq_some_iff.mp at_
  rw [setStage_of_clearance clearance]
  rfl

theorem setStage_settleComplete (stage : Stage) (s : State) : (setStage stage s).settleComplete = s.settleComplete :=
  (setStage_account s stage).settleComplete

/-! ### The stage tests (R149, R153, R154) -/

theorem runOutStep_of_complete (at_ : s.stage = some .runOut) (complete : s.runOutComplete = true) :
    runOutStep s = setStage .settle s := if_pos ⟨at_, complete⟩

theorem runOutStep_of_incomplete (incomplete : s.runOutComplete = false) : runOutStep s = s :=
  if_neg fun ⟨_, complete⟩ => by simp [incomplete] at complete

theorem runOutStep_of_ne (elsewhere : s.stage ≠ some .runOut) : runOutStep s = s := if_neg fun test => elsewhere test.1

theorem unsettleStep_of_ne (elsewhere : s.stage ≠ some .summary) : unsettleStep s = s :=
  if_neg fun test => elsewhere test.1

theorem settleStep_of_ne (elsewhere : s.stage ≠ some .settle) : settleStep s = s := if_neg fun test => elsewhere test.1

theorem summaryStep_of_ne (elsewhere : s.stage ≠ some .summary) : summaryStep s = s :=
  summaryStep_of_none (Option.eq_none_iff_forall_ne_some.mpr fun _ closes => elsewhere (State.stage_of_closeKind closes))

/-- Past RUN_OUT a lot stands in SUMMARY when it has settled, and in SETTLE when it has not. -/
theorem settleStep_unsettleStep (past : s.stage = some .settle ∨ s.stage = some .summary) :
    settleStep (unsettleStep s) = setStage (if s.settleComplete then .summary else .settle) s := by
  cases complete : s.settleComplete with
  | false =>
    have unsettled : unsettleStep s = setStage .settle s := by
      rcases past with settle | summary
      · rw [unsettleStep_of_ne (by simp [settle]), setStage_self settle]
      · exact if_pos ⟨summary, by simp [complete]⟩
    rw [unsettled]
    exact if_neg fun test => by simp [setStage_settleComplete, complete] at test
  | true =>
    have settled : unsettleStep s = s := if_neg fun test => test.2 complete
    rw [settled]
    rcases past with settle | summary
    · exact if_pos ⟨settle, complete⟩
    · rw [settleStep_of_ne (by simp [summary])]
      exact (setStage_self summary).symm

theorem advanceClearance_of_none (none : s.sup.clearance = none) : advanceClearance s = s := by
  have stage : s.stage = Option.none := State.stage_eq_none_iff.mpr none
  rw [advanceClearance, runOutStep_of_ne (by simp [stage]), unsettleStep_of_ne (by simp [stage]),
    settleStep_of_ne (by simp [stage]), summaryStep_of_ne (by simp [stage])]

theorem advanceClearance_of_runOut (at_ : s.stage = some .runOut) (incomplete : s.runOutComplete = false) :
    advanceClearance s = s := by
  rw [advanceClearance, runOutStep_of_incomplete incomplete, unsettleStep_of_ne (by simp [at_]),
    settleStep_of_ne (by simp [at_]), summaryStep_of_ne (by simp [at_])]

/-- The stage tests find the lot in clearance with RUN_OUT complete or behind it. -/
def State.LeavesRunOut (s : State) : Prop :=
  s.stage = some .runOut ∧ s.runOutComplete = true ∨ s.stage = some .settle ∨ s.stage = some .summary

/-- Every lot in clearance whose RUN_OUT is not left incomplete goes to SETTLE or SUMMARY, where the close is tested. -/
theorem advanceClearance_of_past (past : s.LeavesRunOut) :
    advanceClearance s = summaryStep (setStage (if s.settleComplete then .summary else .settle) s) := by
  rw [advanceClearance]
  rcases past with ⟨runOut, complete⟩ | past
  · rw [runOutStep_of_complete runOut complete, settleStep_unsettleStep (.inl (setStage_stage runOut _)),
      setStage_settleComplete, setStage_setStage]
  · rw [runOutStep_of_ne (by rcases past with settle | summary <;> simp [*]), settleStep_unsettleStep past]

theorem advanceClearance_of_unsettled (past : s.LeavesRunOut) (unsettled : s.settleComplete = false) :
    advanceClearance s = setStage .settle s := by
  rw [advanceClearance_of_past past, unsettled]
  exact summaryStep_of_ne (setStage_stage_ne (by decide) s)

theorem advanceClearance_of_settled (past : s.LeavesRunOut) (settled : s.settleComplete = true) :
    advanceClearance s = summaryStep (setStage .summary s) := by
  rw [advanceClearance_of_past past, settled]
  rfl

theorem setStage_closeKind_iff (clearance : s.sup.clearance = some c) {kind : EndKind} :
    (setStage .summary s).closeKind = some kind ↔
      s.sup.engine = .clearing ∧ s.ltx.outbound.length < 32 ∧ c.kind.endKind = kind := by
  rw [setStage_of_clearance clearance, State.closeKind_eq_some_iff]
  simp [Config.outboundLimit]

theorem summaryStep_stage_ne {stage : Stage} (differs : s.stage ≠ some stage) : (summaryStep s).stage ≠ some stage := by
  unfold summaryStep
  split
  · simp [State.stage, closeLot_sup]
  · exact differs

/-- The tests leave no lot in a RUN_OUT that has completed. -/
theorem advanceClearance_stage_ne_runOut (complete : s.runOutComplete = true) :
    (advanceClearance s).stage ≠ some .runOut := by
  cases at_ : s.stage with
  | none => simp [advanceClearance_of_none (State.stage_eq_none_iff.mp at_), at_]
  | some stage =>
    rw [advanceClearance_of_past (by cases stage <;> simp [State.LeavesRunOut, at_, complete])]
    exact summaryStep_stage_ne (setStage_stage_ne (by split <;> decide) s)

/-! ### The index count and its bound (R150, R151) -/

theorem countIndex_of_none (none : s.sup.clearance = none) (by_ : Int) : countIndex by_ s = s := by
  rw [countIndex, none, Option.map_none, ← none]

theorem countIndex_of_clearance (clearance : s.sup.clearance = some c) (by_ : Int) :
    countIndex by_ s = { s with sup := { s.sup with
      clearance := some { c with count := max (-65535) (min 65535 (c.count + by_)) } } } := by
  rw [countIndex, clearance]
  rfl

theorem countIndex_stage (by_ : Int) (s : State) : (countIndex by_ s).stage = s.stage := by
  simp only [State.stage, countIndex, Option.map_map]
  rfl

theorem State.reachesBound_iff (s : State) : s.reachesBound = true ↔
    ∃ c, s.sup.clearance = some c ∧ c.stage = .runOut ∧ c.count + 1 = 2 * ((s.z : Int) + 1) := by
  unfold State.reachesBound State.runOutBound
  cases s.sup.clearance <;> simp

theorem countForward_of_runOut (clearance : s.sup.clearance = some c) (runOut : c.stage = .runOut)
    (incomplete : s.runOutComplete = false) : countForward s = if c.count + 1 = 2 * ((s.z : Int) + 1) then
      raiseFault .runOutExceeded s.faultPocket none (countIndex 1 s) else countIndex 1 s := by
  have at_ : (countIndex 1 s).stage = some .runOut := by
    rw [countIndex_stage, State.stage_of_clearance clearance, runOut]
  have bound : s.reachesBound = true ↔ c.count + 1 = 2 * ((s.z : Int) + 1) := by
    simp [State.reachesBound_iff, clearance, runOut]
  simp only [countForward, advanceClearance_of_runOut at_ incomplete, at_, bound, and_true]
  rfl

/-- The bound counts only in a RUN_OUT that the stage tests leave incomplete. -/
theorem countForward_of_past (past : s.stage ≠ some .runOut ∨ s.runOutComplete = true) :
    countForward s = advanceClearance (countIndex 1 s) := by
  refine if_neg fun ⟨reached, runOut⟩ => ?_
  obtain ⟨c, clearance, stage, -⟩ := s.reachesBound_iff.mp reached
  rcases past with elsewhere | complete
  · exact elsewhere (stage ▸ State.stage_of_clearance clearance)
  · exact advanceClearance_stage_ne_runOut (s := countIndex 1 s) complete runOut

end

/-- Settles O24: the count, its bound in an incomplete RUN_OUT, and the stage tests, which end in SETTLE or in SUMMARY. -/
theorem clearanceCountsAndAdvances : Obligations.ClearanceCountsAndAdvances := by
  refine ⟨fun s by_ => ⟨fun none => countIndex_of_none none by_, fun c clearance => countIndex_of_clearance clearance by_⟩,
    fun s c clearance runOut incomplete => ?_, fun s => countForward_of_past,
    fun s => ⟨s.runOutComplete_iff, s.settleComplete_iff_phases⟩, fun s => advanceClearance_of_none,
    fun s c inStage clearance inStage_eq => ?_⟩
  · rw [countForward_of_runOut clearance runOut incomplete]
    exact ⟨fun reached => if_pos reached, fun unreached => if_neg unreached⟩
  · have at_ : s.stage = some c.stage := State.stage_of_clearance clearance
    have staged (stage : Stage) : inStage stage = setStage stage s := by
      rw [setStage_of_clearance clearance, inStage_eq]
    refine ⟨fun runOut => advanceClearance_of_runOut (runOut ▸ at_), fun past => ?_⟩
    have past : s.LeavesRunOut := by simpa only [State.LeavesRunOut, at_, Option.some.injEq] using past
    rw [staged, staged]
    refine ⟨advanceClearance_of_unsettled past, fun settled clearing room => ?_, fun settled stays => ?_⟩
    · rw [advanceClearance_of_settled past settled]
      exact summaryStep_of_some ((setStage_closeKind_iff clearance).mpr ⟨clearing, room, rfl⟩)
    · rw [advanceClearance_of_settled past settled]
      refine summaryStep_of_none (Option.eq_none_iff_forall_ne_some.mpr fun kind closes => ?_)
      obtain ⟨clearing, room, -⟩ := (setStage_closeKind_iff clearance).mp closes
      exact stays.elim (· clearing) (Nat.not_le.mpr room)

end Sys2Proof.Machine

/-! The end of a transmission: its place goes to one waiting producer, and the next transmission begins (R166, R169 to R171,
R182). -/

namespace Sys2Proof.Machine

section

variable {s : State}

/-! ### The Dispatcher's head at the last place (R169) -/

theorem State.headWaits_of_full {f : InFrame} {rest : List InFrame} (head : s.lrx.inbound = f :: rest)
    (full : s.ltx.outbound.length = 32) (notMeas : f.kind ≠ RequestKind.meas.byte) : s.headWaits = true := by
  refine s.headWaits_iff.mpr ⟨f, rest, head, Bool.eq_false_iff.mpr fun served => ?_⟩
  rcases (headServed_iff f s).mp served with meas | ⟨-, room⟩
  · exact notMeas meas
  · split at room <;> omega

theorem headServed_of_one_place {f : InFrame} (urgent : s.lrx.urgent = []) (place : s.ltx.outbound.length = 31)
    (notAbort : f.kind ≠ RequestKind.lotAbort.byte) : headServed f s = true :=
  (headServed_iff f s).mpr (.inr ⟨urgent, by rw [if_neg notAbort, place]⟩)

theorem headServed_lotAbort_of_one_place {f : InFrame} (place : s.ltx.outbound.length = 31)
    (abort : f.kind = RequestKind.lotAbort.byte) : headServed f s = false := by
  refine Bool.eq_false_iff.mpr fun served => ?_
  rcases (headServed_iff f s).mp served with meas | ⟨-, room⟩
  · exact absurd (abort.symm.trans meas) (by decide)
  · rw [if_pos abort] at room
    omega

/-! ### The producers, in the arbiter's order (R170) -/

theorem admitUrgent_of_none (none : s.lrx.urgent = []) : admitUrgent s = s := by
  rw [admitUrgent, none, List.take_nil, List.drop_nil, List.append_nil, ← none]

/-- With one place left the oldest urgent reply takes it. -/
theorem admitUrgent_of_one_place {r : OutFrame} {waiting : List OutFrame} (urgent : s.lrx.urgent = r :: waiting)
    (place : s.ltx.outbound.length = 31) : admitUrgent s = { s with
      lrx := { s.lrx with urgent := waiting }, ltx := { s.ltx with outbound := s.ltx.outbound ++ [r] } } := by
  rw [admitUrgent, urgent, place]
  rfl

theorem serveWaiting_of_idle (idle : s.lrx.inbound = []) (waited : Bool) : serveWaiting waited s = s := by
  rw [serveWaiting, idle]

theorem serveWaiting_of_served {f : InFrame} {rest : List InFrame} (head : s.lrx.inbound = f :: rest)
    (served : headServed f s = true) :
    serveWaiting true s = serveHead (effectOf (RequestKind.ofByte f.kind)) f rest s := by
  rw [serveWaiting, head]
  exact if_pos ⟨rfl, served⟩

theorem serveWaiting_of_unserved {f : InFrame} {rest : List InFrame} (head : s.lrx.inbound = f :: rest)
    {waited : Bool} (unserved : waited = true → headServed f s = false) : serveWaiting waited s = s := by
  rw [serveWaiting, head]
  exact if_neg fun ⟨waits, served⟩ => by simp [unserved waits] at served

/-- R169: a head that waits is no MEAS, so at a full queue it waits on. -/
theorem serveWaiting_of_full {t : State} (inbound : t.lrx.inbound = s.lrx.inbound) (full : t.ltx.outbound.length = 32) :
    serveWaiting s.headWaits t = t := by
  cases head : s.lrx.inbound with
  | nil => exact serveWaiting_of_idle (inbound.trans head) _
  | cons f rest =>
    refine serveWaiting_of_unserved (inbound.trans head) fun waits => ?_
    obtain ⟨f', rest', head', unserved⟩ := s.headWaits_iff.mp waits
    obtain ⟨rfl, -⟩ := List.cons.inj (head.symm.trans head')
    rw [← Bool.not_eq_true, headServed_iff] at unserved ⊢
    rintro (meas | ⟨-, room⟩)
    · exact unserved (.inl meas)
    · split at room <;> omega

theorem summaryStep_of_full (full : s.ltx.outbound.length = 32) : summaryStep s = s := by
  refine summaryStep_of_none (Option.eq_none_iff_forall_ne_some.mpr fun kind closes => ?_)
  obtain ⟨c, -, -, -, room, -⟩ := State.closeKind_eq_some_iff.mp closes
  exact absurd (full ▸ room) (by decide)

theorem summaryStep_of_no_summary
    (noSummary : ∀ c, s.sup.clearance = some c → c.stage ≠ .summary ∨ s.sup.engine ≠ .clearing) : summaryStep s = s := by
  refine summaryStep_of_none (Option.eq_none_iff_forall_ne_some.mpr fun kind closes => ?_)
  obtain ⟨c, clearance, summary, clearing, -, -⟩ := State.closeKind_eq_some_iff.mp closes
  exact (noSummary c clearance).elim (· summary) (· clearing)

/-- With one place left the owed condition of the lowest number takes it. -/
theorem queueOwed_of_one_place {c : Condition} (place : s.ltx.outbound.length = 31)
    (owed : s.notices[c.index].owed = true)
    (lowest : ∀ c' : Condition, c'.index < c.index → s.notices[c'.index].owed = false) : queueOwed s = { s with
      notices := s.notices.set c.index { s.notices[c.index] with owed := false }
      ltx := { s.ltx with outbound := s.ltx.outbound ++ [noticeFrame c s.notices[c.index].detail] } } := by
  have before : (Condition.all.take c.index).foldl queueNotice (s.notices, s.ltx) = (s.notices, s.ltx) :=
    foldl_queueNotice_idle (.inr fun c' member => lowest c' (c.index_lt_of_mem_take c' member))
  have queued := queueNotice_owed (p := (s.notices, s.ltx)) owed (Nat.lt_of_le_of_lt place.le (by decide))
  have all : Condition.all.foldl queueNotice (s.notices, s.ltx) = queueNotice (s.notices, s.ltx) c := by
    rw [c.all_split, List.foldl_append, before, List.foldl_cons, queued]
    exact foldl_queueNotice_idle (.inl (by simp [place]))
  rw [queueOwed, all, queued]

/-! ### The arbiter at the last place -/

/-- Once the last place is taken, no later producer finds one. -/
theorem laterProducers_of_full {t : State} (inbound : t.lrx.inbound = s.lrx.inbound) (full : t.ltx.outbound.length = 32) :
    queueOwed (summaryStep (serveWaiting s.headWaits t)) = t := by
  rw [serveWaiting_of_full inbound full, summaryStep_of_full full, queueOwed_idle (.inl full.ge)]

theorem arbitrate_urgent {t : State} {r : OutFrame} {waiting : List OutFrame} (inbound : t.lrx.inbound = s.lrx.inbound)
    (urgent : t.lrx.urgent = r :: waiting) (place : t.ltx.outbound.length = 31) :
    arbitrate s.headWaits t = { t with
      lrx := { t.lrx with urgent := waiting }, ltx := { t.ltx with outbound := t.ltx.outbound ++ [r] } } := by
  rw [arbitrate, admitUrgent_of_one_place urgent place]
  exact laterProducers_of_full inbound (by simp [place])

theorem arbitrate_of_noUrgent (urgent : s.lrx.urgent = []) (waited : Bool) :
    arbitrate waited s = queueOwed (summaryStep (serveWaiting waited s)) := by
  rw [arbitrate, admitUrgent_of_none urgent]

theorem queueOwed_closeLot_of_one_place (place : s.ltx.outbound.length = 31) (kind : EndKind) :
    queueOwed (closeLot kind s) = closeLot kind s :=
  queueOwed_idle (.inl (by simp [closeLot_outbound, place]))

/-! ### The transmitter (R171) -/

/-- The head frame has been sent: its place is free, and TXD is idle from its end on. -/
def transmitted (ends : Nat) (s : State) : State := freePlace (quietTxd ends (advanceTo (ends / Config.ticksPerUs) s))

theorem transmitted_lrx (ends : Nat) (s : State) : (transmitted ends s).lrx = s.lrx := by simp [transmitted]

theorem transmitted_place (full : s.ltx.outbound.length = 32) (ends : Nat) :
    (transmitted ends s).ltx.outbound.length = 31 := by
  simp [transmitted, full]

theorem exec_transmissionEnd {began ends : Nat} (running : s.held = false) (txd : s.ltx.txd = .sending began ends) :
    exec .transmissionEnd s = .next (startTransmission (arbitrate s.headWaits (transmitted ends s))) := by
  have ended : onTransmissionEnd s = startTransmission (arbitrate s.headWaits (transmitted ends s)) := by
    rw [onTransmissionEnd, txd]
    rfl
  exact congrArg Host.Outcome.next ((whenRunning_of_running running _).trans ended)

theorem exec_transmissionEnd_cut {ends : Nat} (running : s.held = false) (txd : s.ltx.txd = .cut ends) :
    exec .transmissionEnd s =
      .next (startTransmission (quietTxd ends (advanceTo (ends / Config.ticksPerUs) s))) := by
  have ended : onTransmissionEnd s = startTransmission (quietTxd ends (advanceTo (ends / Config.ticksPerUs) s)) := by
    rw [onTransmissionEnd, txd]
  exact congrArg Host.Outcome.next ((whenRunning_of_running running _).trans ended)

theorem startTransmission_begins {g : OutFrame} {more : List OutFrame} {since : Nat} (queue : s.ltx.outbound = g :: more)
    (idle : s.ltx.txd = .idle since) : (startTransmission s).ltx =
      { outbound := { g with flags := some (flagsByte s.ltx.reject s.ltx.overrun s.ltx.lost s.attn) } :: more
        txd := .sending (max (8 * s.now) since)
          (max (8 * s.now) since + (7 + g.body.payload.length) * s.rate.charTicks)
        reject := false, overrun := false, lost := false } := by
  simp only [startTransmission, LineTransmitter.start, idle, queue]
  rfl

end

/-- Settles O55: who takes the place that the head frame leaves, and how the next frame begins. -/
theorem transmissionEndFreesPlace : Obligations.TransmissionEndFreesPlace := by
  refine ⟨fun s v began ends running txd v_eq => ?_, fun s ends running txd => exec_transmissionEnd_cut running txd,
    fun v g more since => startTransmission_begins⟩
  have freed : transmitted ends s = v := v_eq.symm
  have ended := exec_transmissionEnd running txd
  rw [freed] at ended
  have lrx : v.lrx = s.lrx := freed ▸ transmitted_lrx ends s
  have sup : v.sup = s.sup := by rw [v_eq]
  have notices : v.notices = s.notices := by rw [v_eq]
  have place (full : s.ltx.outbound.length = 32) : v.ltx.outbound.length = 31 := freed ▸ transmitted_place full ends
  have inbound : v.lrx.inbound = s.lrx.inbound := congrArg LineReceiver.inbound lrx
  have noUrgent (none : s.lrx.urgent = []) : v.lrx.urgent = [] := (congrArg LineReceiver.urgent lrx).trans none
  refine ⟨fun r waiting urgent full => ?_, fun f rest urgent head full notMeas notAbort => ?_,
    fun urgent full behind => ?_, fun urgent idle noClearance noneOwed => ?_⟩
  · rw [ended, arbitrate_urgent inbound (by rw [lrx, urgent]) (place full), lrx]
  · rw [ended, arbitrate_of_noUrgent (noUrgent urgent), s.headWaits_of_full head full notMeas,
      serveWaiting_of_served (inbound.trans head) (headServed_of_one_place (noUrgent urgent) (place full) notAbort)]
  · have unserved : serveWaiting s.headWaits v = v := by
      rcases behind with none | ⟨f, rest, head, abort⟩
      · exact serveWaiting_of_idle (inbound.trans none) _
      · exact serveWaiting_of_unserved (inbound.trans head) fun _ => headServed_lotAbort_of_one_place (place full) abort
    rw [ended, arbitrate_of_noUrgent (noUrgent urgent), unserved]
    refine ⟨fun c clearance summary clearing => ?_, fun noSummary c owed lowest => ?_⟩
    · have closes : v.closeKind = some c.kind.endKind := State.closeKind_eq_some_iff.mpr
        ⟨c, sup ▸ clearance, summary, sup ▸ clearing, Nat.lt_of_le_of_lt (place full).le (by decide), rfl⟩
      rw [summaryStep_of_some closes, queueOwed_closeLot_of_one_place (place full)]
    · rw [summaryStep_of_no_summary (sup ▸ noSummary),
        queueOwed_of_one_place (place full) (notices ▸ owed) (notices ▸ lowest), notices]
      rfl
  · rw [ended, arbitrate_of_noUrgent (noUrgent urgent), serveWaiting_of_idle (inbound.trans idle),
      summaryStep_of_no_summary (by simp [sup, noClearance]), queueOwed_idle (.inr (notices ▸ noneOwed))]

end Sys2Proof.Machine

/-! Good frames that join the inbound queue, or are lost to its overrun (R165, R167, R168). -/

namespace Sys2Proof.Machine

section

variable {f : InFrame} {s : State}

/-! ### Which frames join (R165) -/

/-- R160: an unassigned node keeps a broadcast NODE_ASSIGN. -/
theorem keptBy_unassigned (dest : f.dest = Config.broadcast) (kind : f.kind = kindNodeAssign) : f.keptBy none = true := by
  simp [InFrame.keptBy, dest, kind]

theorem acceptKept_joins (held : List Byte) (notUrgent : ¬ (f.kind = kindHalt ∨ f.kind = kindCoreReset))
    (notDiscarded : ¬ (f.kind = kindMeas ∧ f.dest = Config.broadcast)) (s : State) :
    acceptKept f held s = (appendInbound f s, .again []) := by
  rw [acceptKept, if_neg notUrgent, if_neg notDiscarded]

theorem address_ne_broadcast (a : Fin 4) : BitVec.ofNat 8 a.val ≠ Config.broadcast := by
  revert a
  decide

/-- R165 steps 1, 2 and 5: a frame that the node takes is kept, and is no broadcast MEAS. -/
theorem kept_not_discarded {address : Option (Fin 4)}
    (takes : (∃ a : Fin 4, address = some a ∧ (f.dest = BitVec.ofNat 8 a.val ∨ f.dest = 0xFF ∧ f.kind ≠ 0x01)) ∨
      (address = none ∧ f.dest = 0xFF ∧ f.kind = 0x42)) :
    f.keptBy address = true ∧ ¬ (f.kind = kindMeas ∧ f.dest = Config.broadcast) := by
  rcases takes with ⟨a, rfl, own | ⟨broadcast, notMeas⟩⟩ | ⟨rfl, broadcast, assign⟩
  · have notBroadcast : f.dest ≠ Config.broadcast := own ▸ address_ne_broadcast a
    exact ⟨keptBy_assigned (.inl own), fun meas => notBroadcast meas.2⟩
  · exact ⟨keptBy_assigned (.inr broadcast), fun meas => notMeas meas.1⟩
  · have notMeas : f.kind ≠ kindMeas := by
      rw [assign]
      decide
    exact ⟨keptBy_unassigned broadcast assign, fun meas => notMeas meas.1⟩

/-! ### The inbound queue (R167) -/

theorem appendInbound_of_room (room : s.lrx.inbound.length < 16) (f : InFrame) :
    appendInbound f s = setInbound (s.lrx.inbound ++ [f]) s :=
  if_pos room

theorem appendInbound_of_full (full : 16 ≤ s.lrx.inbound.length) (f : InFrame) :
    appendInbound f s = raiseNotice .linkError LinkTrouble.overrun.code { s with ltx := { s.ltx with overrun := true } } :=
  if_neg (Nat.not_lt.mpr full)

theorem appendInbound_gapTimer (f : InFrame) (s : State) : (appendInbound f s).lrx.gapTimer = s.lrx.gapTimer := by
  unfold appendInbound
  split <;> rfl

/-- R168: HOLD is judged by the occupancy with the new frame. -/
theorem setInbound_append_hold (f : InFrame) (s : State) : (setInbound (s.lrx.inbound ++ [f]) s).lrx.hold =
    holdLevel s.link (s.lrx.inbound.length + 1) s.lrx.hold := by
  rw [setInbound, judgeHold_hold, List.length_append]
  rfl

/-! ### The end of the frame -/

theorem appendInbound_timeGap (f : InFrame) (s : State) : appendInbound f (timeGap s) = timeGap (appendInbound f s) := by
  unfold appendInbound
  rw [apply_ite timeGap]
  rfl

/-- R165 step 5: the last CRC byte of a frame that is kept, not urgent and not discarded brings it to the inbound queue. -/
theorem exec_frameComplete_joins {time : Nat} {b : Byte} {frame : List Byte} (running : s.held = false)
    (at_ : s.lrx.assembler = .frame frame) (inTime : s.inTime time) (within : f.payload.length ≤ 56)
    (whole : frame ++ [b] = frameBytes f.dest f.kind f.tag f.payload) (kept : f.keptBy s.lrx.nodeAddress = true)
    (notUrgent : ¬ (f.kind = kindHalt ∨ f.kind = kindCoreReset))
    (notDiscarded : ¬ (f.kind = kindMeas ∧ f.dest = Config.broadcast)) :
    exec (.frameComplete time b) s = .next (finishLine (appendInbound f (s.hunting time))) := by
  have taken : takeChar b (markChar (advanceTo time s)) =
      (appendInbound f (setAssembler .hunt (markChar (advanceTo time s))), .again []) := by
    rw [takeChar_frame (s := markChar (advanceTo time s)) at_, whole, extendFrame_good within]
    exact (if_pos kept).trans (acceptKept_joins _ notUrgent notDiscarded _)
  rw [exec_frameComplete running, charEndsAt_inTime inTime, onChar_of_again taken, finishReception, ← appendInbound_timeGap]
  rfl

end

/-- Settles O58: the last CRC byte brings the frame to the inbound queue, which has a place for it or not. -/
theorem goodFrameJoinsInboundQueue : Obligations.GoodFrameJoinsInboundQueue := by
  intro time b s dest kind tag payload frame running within takes notHalt notReset at_ inTime whole
  obtain ⟨kept, notDiscarded⟩ :=
    kept_not_discarded (f := { dest := dest, kind := kind, tag := tag, payload := payload }) takes
  rw [exec_frameComplete_joins running at_ inTime within whole kept (not_or.mpr ⟨notHalt, notReset⟩) notDiscarded]
  refine ⟨_, rfl, appendInbound_assembler .., appendInbound_gapTimer .., fun room => ?_, fun full => ?_⟩
  · rw [appendInbound_of_room (s := s.hunting time) room]
    exact ⟨rfl, setInbound_append_hold _ (s.hunting time), rfl⟩
  · rw [appendInbound_of_full (s := s.hunting time) full]
    exact ⟨rfl, rfl, raiseNotice_get .linkError ..⟩

end Sys2Proof.Machine

/-! NODE_ASSIGN (R179) and a frame of an unknown KIND (R169, R172). -/

namespace Sys2Proof.Machine

section

variable {s : State} {f : InFrame} {rest : List InFrame} {b : Byte}

/-! ### NODE_ASSIGN (R179) -/

theorem exec_nodeAssign (h : Serves s .nodeAssign f rest) :
    exec .nodeAssign s = .next (finishLine (serveNodeAssign f (setInbound rest s))) :=
  serveRow_of_serves h serveNodeAssign

theorem setInbound_nodeAddress (frames : List InFrame) (s : State) :
    (setInbound frames s).lrx.nodeAddress = s.lrx.nodeAddress := rfl

theorem serveNodeAssign_assigned {a : Fin 4} (payload : f.payload = [b]) (assigned : s.lrx.nodeAddress = some a) :
    serveNodeAssign f s = reply f .refusedState [] s := by
  rw [serveNodeAssign, if_neg (by simp [payload]), assigned]

theorem serveNodeAssign_badField (payload : f.payload = [b]) (unassigned : s.lrx.nodeAddress = none)
    (above : 3 < b.toNat) : serveNodeAssign f s = reply f .badField [1] s := by
  have refused : 3 < field f.payload 0 1 := by rwa [payload, field_singleton]
  rw [serveNodeAssign, if_neg (by simp [payload]), unassigned]
  exact if_pos refused

theorem serveNodeAssign_taken {a : Fin 4} (payload : f.payload = [b]) (unassigned : s.lrx.nodeAddress = none)
    (names : b.toNat = a.val) :
    serveNodeAssign f s = reply f .done [b] { s with lrx := { s.lrx with nodeAddress := some a } } := by
  have inside : ¬ 3 < a.val := by omega
  have address : Fin.ofNat 4 a.val = a := Fin.ofNat_val_eq_self a
  simp only [serveNodeAssign, payload, unassigned, field_singleton, names, inside, address, List.length_singleton, ne_eq,
    not_true, if_false]

/-! ### An unknown KIND (R169, R172) -/

theorem headServed_of_unknown (unknown : RequestKind.ofByte f.kind = none) (urgent : s.lrx.urgent = [])
    (room : s.ltx.outbound.length ≤ 31) : headServed f s = true := by
  simp [headServed, unknown, urgent, room]

theorem exec_unknownKind (running : s.held = false) (head : s.lrx.inbound = f :: rest)
    (unknown : RequestKind.ofByte f.kind = none) (ready : headServed f s = true) :
    exec .unknownKind s = .next (finishLine (reply f .unknownKind [] (setInbound rest s))) := by
  simp [exec, execUnknownKind, whenRunning, running, serve, serveHead, head, unknown, ready, serveUnknownKind]

end

/-- Settles O54: a NODE_ASSIGN by the node's address and the byte it gives; an unknown KIND goes back with its reply. -/
theorem nodeAssignAndUnknownKindAreAnswered : Obligations.NodeAssignAndUnknownKindAreAnswered := by
  refine ⟨fun s f rest b serves payload => ?_, fun s f rest running head unknown urgent room => ?_⟩
  · have address := setInbound_nodeAddress rest s
    have answered := serves.reply_eq_answer
    rw [exec_nodeAssign serves]
    refine ⟨fun a unassigned names => ?_, fun a assigned => ?_, fun unassigned above => ?_⟩
    · rw [serveNodeAssign_taken payload (address.trans unassigned) names, answered]
      exact ⟨_, rfl, rfl, rfl, rfl⟩
    · rw [serveNodeAssign_assigned payload (address.trans assigned), answered]
      rfl
    · rw [serveNodeAssign_badField payload (address.trans unassigned) above, answered]
      rfl
  · rw [exec_unknownKind running head unknown (headServed_of_unknown unknown urgent room), reply_eq_answer rfl]

end Sys2Proof.Machine

/-! Replies as rows of fields: where a field of a reply stands, and the reply to STATUS_QUERY (R173). -/

namespace Sys2Proof.Machine

section

/-! ### Fields at their places (R161) -/

variable {fields : List (List Byte)} {sizes : List Nat}

/-- The fields from number `i` on stand behind the sizes of the fields before them. -/
theorem slice_flatten {start count : Nat} (layout : fields.map List.length = sizes) (i j : Nat)
    (offset : (sizes.take i).sum = start) (size : ((sizes.drop i).take j).sum = count) :
    slice fields.flatten start count = ((fields.drop i).take j).flatten := by
  rw [slice, ← offset, ← size, ← layout, List.drop_sum_flatten, ← List.map_drop, List.take_sum_flatten]

theorem drop_flatten {start : Nat} (layout : fields.map List.length = sizes) (i : Nat)
    (offset : (sizes.take i).sum = start) : fields.flatten.drop start = (fields.drop i).flatten := by
  rw [← offset, ← layout, List.drop_sum_flatten]

theorem getElem?_of_slice {bytes rest : List Byte} {b : Byte} {start count : Nat}
    (read : slice bytes start (count + 1) = b :: rest) : bytes[start]? = some b := by
  have head : (slice bytes start (count + 1))[0]? = some b := by rw [read]; rfl
  rwa [slice, List.getElem?_take_of_lt (Nat.succ_pos count), List.getElem?_drop] at head

theorem bytesOf_one (v : Nat) : bytesOf 1 v = [BitVec.ofNat 8 v] := by simp [bytesOf]

theorem orFF_some (v : Nat) : orFF (some v) = [BitVec.ofNat 8 v] := bytesOf_one v

theorem orFF_none : orFF none = [0xFF] := rfl

theorem orFF_length (v : Option Nat) : (orFF v).length = 1 := bytesOf_length ..

theorem optional4_length (v : Option Nat) {free : List Byte} (four : free.length = 4) : (optional4 v free).length = 5 := by
  cases v <;> simp [optional4, bytesOf_length, four]

theorem State.unstatedBytes_length (s : State) (k count : Nat) : (s.unstatedBytes k count).length = count :=
  bytesOf_length ..

end

section

variable {s : State}

/-! ### The fields of the status (R173) -/

/-- The clearance index count of the status. -/
def State.countBytes (s : State) : List Byte :=
  match s.sup.clearance with
  | some c => signedBytesOf 3 c.count
  | none => s.unstatedBytes 0 3

/-- The node address of the status. -/
def State.addressBytes (s : State) : List Byte :=
  match s.lrx.nodeAddress with
  | some a => bytesOf 1 a.val
  | none => s.unstatedBytes 3 1

/-- The fields of the status in R173's order. -/
def State.statusFields (s : State) : List (List Byte) :=
  [bytesOf 1 s.sup.engine.code, orFF (s.sup.returnState.map RunState.code), orFF (s.stage.map Stage.code),
    orFF (s.sup.clearance.map fun c => c.kind.endKind.code), s.countBytes, orFF s.tracker.loadPocket, s.nextSeqBytes,
    optional4 s.sup.lotId (s.unstatedBytes 2 4), bytesOf 4 s.sup.present, bytesOf 4 s.sup.unaccounted,
    bytesOf 4 s.sup.recovered, bytesOf 4 s.sup.strays, bytesOf 1 s.sup.resetCause.code,
    orFF (s.sup.lastDiscard.map Discard.code), s.addressBytes, bytesOf 1 s.lrx.inbound.length,
    bytesOf 1 s.ltx.outbound.length, bytesOf 1 s.lrx.urgent.length, [flagByte s.lrx.hold], bytesOf 2 s.pendingWord,
    bytesOf 2 s.maskWord, s.faultBlock]

/-- The sizes of these fields. -/
def State.statusSizes (s : State) : List Nat :=
  [1, 1, 1, 1, 3, 1, 5, 5, 4, 4, 4, 4, 1, 1, 1, 1, 1, 1, 1, 2, 2, s.faultBlock.length]

theorem State.statusBytes_eq (s : State) : s.statusBytes = s.statusFields.flatten := by
  simp only [State.statusFields, List.flatten_cons, List.flatten_nil, List.append_nil, ← List.append_assoc]
  rfl

theorem State.countBytes_length (s : State) : s.countBytes.length = 3 := by
  unfold State.countBytes
  split <;> exact bytesOf_length ..

theorem State.addressBytes_length (s : State) : s.addressBytes.length = 1 := by
  unfold State.addressBytes
  split <;> exact bytesOf_length ..

theorem State.nextSeqBytes_length (s : State) : s.nextSeqBytes.length = 5 := by
  unfold State.nextSeqBytes
  split
  case h_1 q _ => split <;> simp [bytesOf_length, State.unstatedBytes_length]
  case h_2 => simp [State.unstatedBytes_length]

theorem State.statusFields_layout (s : State) : s.statusFields.map List.length = s.statusSizes := by
  simp [State.statusFields, State.statusSizes, bytesOf_length, orFF_length, optional4_length, State.unstatedBytes_length,
    State.countBytes_length, State.addressBytes_length, State.nextSeqBytes_length]

/-- The `j` fields from number `i` on, at the place that the sizes give. -/
theorem State.statusBytes_slice (s : State) {start count : Nat} {read : List Byte} (i j : Nat)
    (fields : ((s.statusFields.drop i).take j).flatten = read)
    (offset : (s.statusSizes.take i).sum = start := by simp [State.statusSizes])
    (size : ((s.statusSizes.drop i).take j).sum = count := by simp [State.statusSizes]) :
    slice s.statusBytes start count = read := by
  rw [s.statusBytes_eq, slice_flatten s.statusFields_layout i j offset size, fields]

theorem State.statusBytes_length (s : State) : s.statusBytes.length = 45 + s.faultBlock.length := by
  rw [s.statusBytes_eq, List.length_flatten, s.statusFields_layout]
  simp only [State.statusSizes, List.sum_cons, List.sum_nil]
  omega

/-! ### The status, field by field -/

/-- The engine state, and the return state, the stage and the end kind where they are present. -/
theorem State.statusBytes_engine (s : State) : slice s.statusBytes 0 4 = [BitVec.ofNat 8 s.sup.engine.code]
    ++ orFF (s.sup.returnState.map RunState.code) ++ orFF (s.stage.map Stage.code)
    ++ orFF (s.sup.clearance.map fun c => c.kind.endKind.code) :=
  s.statusBytes_slice 0 4 (by simp [State.statusFields, bytesOf_one])

theorem State.statusBytes_count {c : Clearance} (clearance : s.sup.clearance = some c) :
    slice s.statusBytes 4 3 = signedBytesOf 3 c.count :=
  s.statusBytes_slice 4 1 (by simp [State.statusFields, State.countBytes, clearance])

theorem State.statusBytes_loadPocket (s : State) : slice s.statusBytes 7 1 = orFF s.tracker.loadPocket :=
  s.statusBytes_slice 5 1 (by simp [State.statusFields])

theorem State.statusBytes_nextSeq (s : State) : slice s.statusBytes 8 5 = s.nextSeqBytes :=
  s.statusBytes_slice 6 1 (by simp [State.statusFields])

theorem State.statusBytes_lotId (s : State) : slice s.statusBytes 13 5 = optional4 s.sup.lotId (s.unstatedBytes 2 4) :=
  s.statusBytes_slice 7 1 (by simp [State.statusFields])

/-- The four counters, the reset cause and the last discard. -/
theorem State.statusBytes_counters (s : State) : slice s.statusBytes 18 18 = bytesOf 4 s.sup.present
    ++ bytesOf 4 s.sup.unaccounted ++ bytesOf 4 s.sup.recovered ++ bytesOf 4 s.sup.strays
    ++ bytesOf 1 s.sup.resetCause.code ++ orFF (s.sup.lastDiscard.map Discard.code) :=
  s.statusBytes_slice 8 6 (by simp [State.statusFields])

theorem State.statusBytes_address {a : Fin 4} (assigned : s.lrx.nodeAddress = some a) :
    slice s.statusBytes 36 1 = [BitVec.ofNat 8 a.val] :=
  s.statusBytes_slice 14 1 (by simp [State.statusFields, State.addressBytes, assigned, bytesOf_one])

/-- The occupancies of the queues, HOLD, and the pending and mask words. -/
theorem State.statusBytes_line (s : State) : slice s.statusBytes 37 8 = bytesOf 1 s.lrx.inbound.length
    ++ bytesOf 1 s.ltx.outbound.length ++ bytesOf 1 s.lrx.urgent.length ++ [flagByte s.lrx.hold]
    ++ bytesOf 2 s.pendingWord ++ bytesOf 2 s.maskWord :=
  s.statusBytes_slice 15 6 (by simp [State.statusFields])

theorem State.statusBytes_faults (s : State) : s.statusBytes.drop 45 = s.faultBlock := by
  rw [s.statusBytes_eq, drop_flatten s.statusFields_layout 21 (by simp [State.statusSizes])]
  exact List.append_nil _

theorem State.nextSeqBytes_present {q : Nat} (next : s.tracker.nextSeq = some q) (small : q ≤ 4294967295) :
    s.nextSeqBytes = 1 :: bytesOf 4 q := by
  rw [State.nextSeqBytes, next]
  exact if_pos small

theorem State.nextSeqBytes_exhausted {q : Nat} (next : s.tracker.nextSeq = some q) (past : 4294967295 < q) :
    s.nextSeqBytes = 2 :: s.unstatedBytes 1 4 := by
  rw [State.nextSeqBytes, next]
  exact if_neg (Nat.not_le.mpr past)

theorem State.nextSeqBytes_absent (absent : s.tracker.nextSeq = none) : s.nextSeqBytes = 0 :: s.unstatedBytes 1 4 := by
  rw [State.nextSeqBytes, absent]

end

section

variable {s : State} {f : InFrame} {rest : List InFrame}

/-! ### STATUS_QUERY -/

theorem exec_statusQuery (h : Serves s .statusQuery f rest) :
    exec .statusQuery s = .next (finishLine (serveStatusQuery f (setInbound rest s))) :=
  serveRow_of_serves h serveStatusQuery

theorem serveStatusQuery_done (empty : f.payload = []) :
    serveStatusQuery f s = drawUnstated (reply f .done s.statusBytes s) :=
  if_neg (by simp [empty])

end

/-- Settles O41: the state behind the head frame, shown field by field at R173's places. -/
theorem statusQueryIsAnswered : Obligations.StatusQueryIsAnswered := by
  rintro s v f rest serves empty rfl
  refine ⟨?_, ?_, ?_, fun c clearance => State.statusBytes_count clearance, ?_, fun q next small => ?_,
    fun q next past => ?_, fun absent => ?_, fun id present => ?_, fun absent => ?_, ?_, fun a assigned => ?_, ?_,
    State.statusBytes_faults _⟩
  · rw [exec_statusQuery serves, serveStatusQuery_done empty, serves.reply_eq_answer]
    exact ⟨_, rfl, rfl⟩
  · rw [State.statusBytes_length, State.faultBlock_length, setInbound_sup]
    omega
  · rw [State.statusBytes_engine, State.stage, setInbound_sup, List.append_assoc]
    cases s.sup.returnState <;> cases s.sup.clearance <;> simp [orFF_some, orFF_none]
  · have pocket := (setInbound rest s).statusBytes_loadPocket
    rw [setInbound_tracker] at pocket
    cases load : s.tracker.loadPocket with
    | none => exact getElem?_of_slice (pocket.trans (congrArg orFF load))
    | some p => exact getElem?_of_slice ((pocket.trans (congrArg orFF load)).trans (orFF_some p))
  · exact (State.statusBytes_nextSeq _).trans (State.nextSeqBytes_present next small)
  · exact getElem?_of_slice ((State.statusBytes_nextSeq _).trans (State.nextSeqBytes_exhausted next past))
  · exact getElem?_of_slice ((State.statusBytes_nextSeq _).trans (State.nextSeqBytes_absent absent))
  · rw [State.statusBytes_lotId, setInbound_sup, present, optional4]
  · have lotId := (setInbound rest s).statusBytes_lotId
    rw [setInbound_sup, absent, optional4] at lotId
    exact getElem?_of_slice lotId
  · rw [State.statusBytes_counters, setInbound_sup]
    cases s.sup.lastDiscard <;> simp [orFF_some, orFF_none]
  · exact getElem?_of_slice (State.statusBytes_address assigned)
  · exact State.statusBytes_line _

end Sys2Proof.Machine

/-! POCKET_QUERY (R174): a record's bytes, the place that a request names, and its refusals. -/

namespace Sys2Proof.Machine

section

/-! ### The bytes of a record (R174) -/

theorem Result.bytes_eq (x : Result) : x.bytes = [BitVec.ofNat 8 x.station.code, BitVec.ofNat 8 x.status.code]
    ++ (match x.value with
        | some (mantissa, exponent) => bytesOf 3 mantissa ++ signedBytesOf 1 exponent
        | none => []) := by
  rw [Result.bytes, bytesOf_one, bytesOf_one]
  cases x.value <;> rfl

/-! ### The place of a request -/

theorem queryPlace_ring (position : Nat) : queryPlace 0 position = some (.ring position) := rfl

theorem queryPlace_stack_zero : queryPlace 1 0 = none := rfl

theorem queryPlace_stack {position : Nat} (deep : position ≠ 0) : queryPlace 1 position = some (.stack (position - 1)) :=
  if_neg deep

end

section

variable {s : State} {f : InFrame} {rest : List InFrame} {sel pos : Byte}

/-! ### POCKET_QUERY -/

theorem exec_pocketQuery (h : Serves s .pocketQuery f rest) :
    exec .pocketQuery s = .next (finishLine (servePocketQuery f (setInbound rest s))) :=
  serveRow_of_serves h servePocketQuery

section

variable (payload : f.payload = [sel, pos])

include payload

theorem servePocketQuery_badField (above : 1 < sel.toNat) : servePocketQuery f s = reply f .badField [1] s := by
  simp [servePocketQuery, payload, field_one (k := 0), above, badField, bytesOf_one]

variable (selects : sel.toNat ≤ 1)

include selects

theorem servePocketQuery_noLot (noLot : s.lotOpen = false) : servePocketQuery f s = reply f .refusedState [] s := by
  simp [servePocketQuery, payload, field_one (k := 0), Nat.not_lt.mpr selects, noLot]

variable (lot : s.lotOpen = true)

include lot

theorem servePocketQuery_noPlace (place : queryPlace sel.toNat pos.toNat = none) :
    servePocketQuery f s = reply f .badIndex [] s := by
  simp [servePocketQuery, payload, field_one (k := 0), field_one (k := 1), Nat.not_lt.mpr selects, lot, place]

variable {p : Place} (place : queryPlace sel.toNat pos.toNat = some p)

include place

theorem servePocketQuery_noRecord (missing : s.recordAt p = none) : servePocketQuery f s = reply f .badIndex [] s := by
  simp [servePocketQuery, payload, field_one (k := 0), field_one (k := 1), Nat.not_lt.mpr selects, lot, place, missing]

theorem servePocketQuery_record {r : PocketRecord} (record : s.recordAt p = some r) :
    servePocketQuery f s = reply f .done ([sel, pos] ++ bytesOf 1 (s.pocketOf p) ++ r.bytes) s := by
  simp [servePocketQuery, payload, field_one (k := 0), field_one (k := 1), Nat.not_lt.mpr selects, lot, place, record]

end

end

/-- Settles O42: the tests of R174 in their order, each with its answer, and the record field by field. -/
theorem pocketQueryIsAnswered : Obligations.PocketQueryIsAnswered := by
  refine ⟨fun s f rest sel pos serves payload result bytes row => ?_, fun r => ?_⟩
  · have lotOpen : (setInbound rest s).lotOpen = s.lotOpen := State.lotOpen_congr (setInbound_sup rest s)
    suffices served : servePocketQuery f (setInbound rest s) = reply f result bytes (setInbound rest s) by
      rw [exec_pocketQuery serves, served, serves.reply_eq_answer]
      rfl
    rcases row with ⟨above, rfl, rfl⟩ | ⟨selects, noLot, rfl, rfl⟩ | ⟨rfl, lot, outside, rfl, rfl⟩
      | ⟨rfl, lot, rfl | outside, rfl, rfl⟩ | ⟨r, rfl, lot, record, rfl, rfl⟩ | ⟨r, rfl, lot, deep, record, rfl, rfl⟩
    · exact servePocketQuery_badField payload above
    · exact servePocketQuery_noLot payload selects (lotOpen.trans noLot)
    · exact servePocketQuery_noRecord payload (by decide) (lotOpen.trans lot) (queryPlace_ring _)
        (List.getElem?_eq_none outside)
    · exact servePocketQuery_noPlace payload (by decide) (lotOpen.trans lot) queryPlace_stack_zero
    · exact servePocketQuery_noRecord payload (by decide) (lotOpen.trans lot) (queryPlace_stack (Nat.ne_zero_of_lt outside))
        (List.getElem?_eq_none (Nat.le_sub_one_of_lt outside))
    · exact servePocketQuery_record payload (by decide) (lotOpen.trans lot) (queryPlace_ring _) record
    · have nonzero : pos.toNat ≠ 0 := fun zero => deep (BitVec.eq_of_toNat_eq zero)
      have depth : pos.toNat - 1 + 1 = pos.toNat := Nat.succ_pred nonzero
      rw [servePocketQuery_record payload (by decide) (lotOpen.trans lot) (queryPlace_stack nonzero) record,
        State.pocketOf, depth]
      rfl
  · rw [PocketRecord.bytes, funext Result.bytes_eq]
    simp only [bytesOf_one]
    -- The seven optional fields follow the results; each is its bytes or nothing.
    iterate 7 refine congrArg₂ (· ++ ·) ?_ ?_
    · rfl
    · cases r.seq <;> rfl
    · cases r.provisional <;> rfl
    · cases r.finalClass <;> rfl
    · cases r.reason <;> rfl
    · cases r.target <;> rfl
    · cases r.deviation <;> rfl
    · cases r.drift <;> rfl

end Sys2Proof.Machine

/-! OUTLET_QUERY (R175): an outlet's record, field by field. -/

namespace Sys2Proof.Machine

section

variable {s : State} {n : Fin 16}

/-! ### The fields of an outlet (R175) -/

/-- The capacity of the active entry, and 0 without one. -/
def State.shownCapacity (s : State) (n : Fin 16) : Nat :=
  ((s.tables.active.bind fun t => t.outlets[n]).map OutletEntry.capacity).getD 0

/-- The confirmation entries, oldest first. -/
def State.entriesBytes (s : State) (n : Fin 16) : List Byte := s.outlets[n].queue.flatMap fun e => e.bytes s.now

/-- The fields of an outlet in R175's order. -/
def State.outletFields (s : State) (n : Fin 16) : List (List Byte) :=
  [bytesOf 1 n.val, bytesOf 1 s.outlets[n].state.code, bytesOf 2 s.outlets[n].committed, bytesOf 1 s.outlets[n].reserved,
    bytesOf 4 s.outlets[n].lotTotal, bytesOf 1 s.outlets[n].missRun, bytesOf 2 (s.shownCapacity n),
    bytesOf 1 s.outlets[n].slot.code, optional4 s.outlets[n].slot.seq (s.unstatedBytes 0 4),
    bytesOf 1 s.outlets[n].drive.code, bytesOf 1 s.outlets[n].queue.length, s.entriesBytes n]

/-- The sizes of these fields. -/
def State.outletSizes (s : State) (n : Fin 16) : List Nat := [1, 1, 2, 1, 4, 1, 2, 1, 5, 1, 1, (s.entriesBytes n).length]

theorem State.outletBytes_eq (s : State) (n : Fin 16) : s.outletBytes n = (s.outletFields n).flatten := by
  simp only [State.outletFields, List.flatten_cons, List.flatten_nil, List.append_nil, ← List.append_assoc]
  rfl

theorem State.outletFields_layout (s : State) (n : Fin 16) : (s.outletFields n).map List.length = s.outletSizes n := by
  simp [State.outletFields, State.outletSizes, bytesOf_length, optional4_length, State.unstatedBytes_length]

/-- The `j` fields from number `i` on, at the place that the sizes give. -/
theorem State.outletBytes_slice (s : State) (n : Fin 16) {start count : Nat} {read : List Byte} (i j : Nat)
    (fields : (((s.outletFields n).drop i).take j).flatten = read)
    (offset : ((s.outletSizes n).take i).sum = start := by simp [State.outletSizes])
    (size : (((s.outletSizes n).drop i).take j).sum = count := by simp [State.outletSizes]) :
    slice (s.outletBytes n) start count = read := by
  rw [s.outletBytes_eq, slice_flatten (s.outletFields_layout n) i j offset size, fields]

/-- The outlet's number, its state and its counts. -/
theorem State.outletBytes_counts (s : State) (n : Fin 16) : slice (s.outletBytes n) 0 10 = bytesOf 1 n.val
    ++ bytesOf 1 s.outlets[n].state.code ++ bytesOf 2 s.outlets[n].committed ++ bytesOf 1 s.outlets[n].reserved
    ++ bytesOf 4 s.outlets[n].lotTotal ++ bytesOf 1 s.outlets[n].missRun :=
  s.outletBytes_slice n 0 6 (by simp [State.outletFields])

theorem State.outletBytes_capacity (s : State) (n : Fin 16) :
    slice (s.outletBytes n) 10 2 = bytesOf 2 (s.shownCapacity n) :=
  s.outletBytes_slice n 6 1 (by simp [State.outletFields])

theorem State.outletBytes_slot (s : State) (n : Fin 16) :
    slice (s.outletBytes n) 12 1 = [BitVec.ofNat 8 s.outlets[n].slot.code] :=
  s.outletBytes_slice n 7 1 (by simp [State.outletFields, bytesOf_one])

theorem State.outletBytes_slotSeq (s : State) (n : Fin 16) :
    slice (s.outletBytes n) 13 5 = optional4 s.outlets[n].slot.seq (s.unstatedBytes 0 4) :=
  s.outletBytes_slice n 8 1 (by simp [State.outletFields])

/-- The drive and the confirmation queue. -/
theorem State.outletBytes_queue (s : State) (n : Fin 16) : (s.outletBytes n).drop 18 =
    bytesOf 1 s.outlets[n].drive.code ++ bytesOf 1 s.outlets[n].queue.length ++ s.entriesBytes n := by
  rw [s.outletBytes_eq, drop_flatten (s.outletFields_layout n) 9 (by simp [State.outletSizes])]
  simp [State.outletFields]

theorem State.shownCapacity_of_some {t : TableSet} {e : OutletEntry} (active : s.tables.active = some t)
    (entry : t.outlets[n] = some e) : s.shownCapacity n = e.capacity := by
  rw [State.shownCapacity, active, Option.bind_some, entry]
  rfl

theorem State.shownCapacity_of_none
    (missing : s.tables.active = none ∨ ∃ t, s.tables.active = some t ∧ t.outlets[n] = none) : s.shownCapacity n = 0 := by
  rcases missing with inactive | ⟨t, active, missing⟩
  · rw [State.shownCapacity, inactive]
    rfl
  · rw [State.shownCapacity, active, Option.bind_some, missing]
    rfl

theorem Slot.seq_eq_some_iff {slot : Slot} {q : Nat} : slot.seq = some q ↔ slot.name = some (.numbered q) := by
  rw [Slot.seq, Option.bind_eq_some_iff]
  constructor
  · rintro ⟨name, named, seq⟩
    cases name with
    | numbered q' => rwa [← Option.some.inj seq]
    | unnumbered ident => nomatch seq
  · exact fun named => ⟨_, named, rfl⟩

/-- A confirmation entry whose record carries a seq shows it. -/
theorem Entry.bytes_numbered {e : Entry} {q : Nat} (named : e.name = .numbered q) (now : Nat) :
    e.bytes now = (if e.counted then 3 else 1) :: bytesOf 4 q ++ bytesOf 2 (now - e.fireTime) := by
  cases counted : e.counted <;> simp [Entry.bytes, named, counted, RecordName.seq, presenceBit, flagBit, optBytes, bytesOf_one]

theorem Entry.bytes_unnumbered {e : Entry} {ident : Nat} (named : e.name = .unnumbered ident) (now : Nat) :
    e.bytes now = [if e.counted then 2 else 0] ++ bytesOf 2 (now - e.fireTime) := by
  cases counted : e.counted <;> simp [Entry.bytes, named, counted, RecordName.seq, presenceBit, flagBit, optBytes, bytesOf_one]

end

section

variable {s : State} {f : InFrame} {rest : List InFrame} {b : Byte}

/-! ### OUTLET_QUERY -/

theorem exec_outletQuery (h : Serves s .outletQuery f rest) :
    exec .outletQuery s = .next (finishLine (serveOutletQuery f (setInbound rest s))) :=
  serveRow_of_serves h serveOutletQuery

theorem serveOutletQuery_badIndex (payload : f.payload = [b]) (above : 15 < b.toNat) (s : State) :
    serveOutletQuery f s = reply f .badIndex [] s := by
  rw [serveOutletQuery, if_neg (by simp [payload]), payload, field_singleton, if_pos above]

theorem serveOutletQuery_outlet {n : Fin 16} (payload : f.payload = [b]) (names : b.toNat = n.val) (s : State) :
    serveOutletQuery f s = drawUnstated (reply f .done (s.outletBytes n) s) := by
  have inside : ¬ 15 < n.val := by omega
  rw [serveOutletQuery, if_neg (by simp [payload]), payload, field_singleton, names, if_neg inside, Fin.ofNat_val_eq_self]

end

/-- Settles O43: the record of the outlet that the request names, shown field by field at R175's places. -/
theorem outletQueryIsAnswered : Obligations.OutletQueryIsAnswered := by
  rintro s v f rest b serves payload rfl
  have answered := serves.reply_eq_answer
  rw [exec_outletQuery serves]
  refine ⟨fun above => ?_, fun n names => ⟨?_, State.outletBytes_counts _ n, fun t e active entry => ?_, fun missing => ?_,
    getElem?_of_slice (State.outletBytes_slot _ n), fun q named => ?_, fun unnumbered => ?_, ?_⟩⟩
  · rw [serveOutletQuery_badIndex payload above, answered]
    rfl
  · rw [serveOutletQuery_outlet payload names, answered]
    exact ⟨_, rfl, rfl⟩
  · rw [State.outletBytes_capacity, State.shownCapacity_of_some (s := setInbound rest s) active entry]
  · rw [State.outletBytes_capacity, State.shownCapacity_of_none (s := setInbound rest s) missing]
    rfl
  · rw [State.outletBytes_slotSeq, setInbound_outlets, Slot.seq_eq_some_iff.mpr named, optional4]
  · have absent : s.outlets[n].slot.seq = none :=
      Option.eq_none_iff_forall_ne_some.mpr fun q seq => unnumbered q (Slot.seq_eq_some_iff.mp seq)
    have shown := (setInbound rest s).outletBytes_slotSeq n
    rw [setInbound_outlets, absent, optional4] at shown
    exact getElem?_of_slice shown
  · rw [State.outletBytes_queue, State.entriesBytes, setInbound_outlets, setInbound_now]
    congr 1
    refine List.flatMap_congr fun e _ => ?_
    cases name : e.name with
    | numbered q => exact e.bytes_numbered name s.now
    | unnumbered ident => exact e.bytes_unnumbered name s.now

end Sys2Proof.Machine

/-! The step takes the command at the front of the queue, and every command completes (log 26): no event touches the commands
that wait or turns the time base back (log 1, log 29). -/

namespace Sys2Proof.Machine

/-- Settles O1: the step of a state whose queue has a front is `exec` of that front, by definition. -/
theorem frontCommandIsExecuted : Obligations.FrontCommandIsExecuted := fun _ _ _ => rfl

/-! ### Waiting commands and the time base -/

/-- The commands that wait are the same in both states, and the time base is not turned back from the first to the second. -/
structure Onward (s t : State) : Prop where
  pending : t.pending = s.pending
  now : s.now ≤ t.now

theorem Onward.refl (s : State) : Onward s s := ⟨rfl, Nat.le_refl _⟩

theorem Onward.trans {s t u : State} (h : Onward s t) (h' : Onward t u) : Onward s u :=
  ⟨h'.pending.trans h.pending, Nat.le_trans h.now h'.now⟩

theorem Onward.foldl {α : Type} {f : State → α → State} (kept : ∀ s x, Onward s (f s x)) (xs : List α) (s : State) :
    Onward s (xs.foldl f s) :=
  List.foldlRecOn (motive := Onward s) xs f (.refl s) fun t onward x _ => onward.trans (kept t x)

/-- Log 1: an event whose reading has passed comes at once, any other moves the time base up to its reading. -/
@[simp] theorem advanceTo_now (time : Nat) (s : State) : (advanceTo time s).now = max s.now time := rfl

theorem advanceTo_onward (time : Nat) (s : State) : Onward s (advanceTo time s) := ⟨by simp, by simp⟩

theorem finishLine_onward (s : State) : Onward s (finishLine s) := ⟨by simp, by simp⟩

theorem reply_onward (f : InFrame) (result : ResultCode) (bytes : List Byte) (s : State) :
    Onward s (reply f result bytes s) := ⟨by simp, by simp⟩

theorem advanceClearance_onward (s : State) : Onward s (advanceClearance s) := ⟨by simp, by simp⟩

theorem bookAll_onward (reports : List SortReport) (s : State) : Onward s (bookAll reports s) :=
  .foldl (f := fun s (r : SortReport) => book r.pocket r s) (fun _ _ => ⟨by simp, by simp⟩) reports s

section

variable {f : State → State} (kept : ∀ s, Onward s (f s)) (s : State)

include kept

theorem whenRunning_onward : Onward s (whenRunning f s) := by
  unfold whenRunning
  split
  · exact .refl s
  · exact kept s

theorem inLot_onward : Onward s (inLot f s) := by
  unfold inLot
  split
  · exact kept s
  · exact .refl s

/-- A command that acts unless the engine is held in reset (R142). -/
theorem completes_whenRunning : Completes (.next (whenRunning f s)) (Onward s) := ⟨_, rfl, whenRunning_onward kept s⟩

/-- An edge that a lot state takes at its reading (R10, R20, R77, R83). -/
theorem completes_edge (time : Nat) :
    Completes (.next (whenRunning (fun s => inLot f (advanceTo time s)) s)) (Onward s) :=
  completes_whenRunning (fun s => (advanceTo_onward time s).trans (inLot_onward kept _)) s

end

/-! ### The dial -/

theorem compareHome_onward (home : Bool) (s : State) : Onward s (compareHome home s) := by
  have released (t : State) (r : PocketRecord) : Onward t (if r.counted then releaseIfDecided r t else t) := by
    split
    · exact ⟨by simp, by simp⟩
    · exact .refl t
  have faulted : Onward s { raiseFault .homeMismatch s.faultPocket none s with
      tracker := { (raiseFault .homeMismatch s.faultPocket none s).tracker with loadPocket := some 0 } } :=
    ⟨by simp, by simp⟩
  have suspected (ring : List PocketRecord) (t : State) : Onward t (setRing ring t) := ⟨by simp, by simp⟩
  unfold compareHome homeMismatch
  split
  · exact .refl s
  · exact (faulted.trans (.foldl released _ _)).trans (suspected _ _)

theorem passes_onward (s : State) : Onward s (passes s) := by
  have ended (t : State) : Onward t (endSlots t) := ⟨by simp, by simp⟩
  exact (Onward.foldl (f := fun s n => pass n s) (fun _ _ => ⟨by simp, by simp⟩) allOutlets s).trans (ended _)

theorem arrivals_onward (s : State) : Onward s (arrivals s) :=
  .foldl (f := fun s n => handOff n s) (fun _ _ => ⟨by simp, by simp⟩) allOutlets s

theorem forwardParts_onward (home : Bool) (s : State) : Onward s (forwardParts home s) := by
  have moved : Onward s (moveUp (cancelCheck s)) := ⟨by simp, by simp⟩
  have decided (t : State) : Onward t (deadlines t) := ⟨by simp, by simp⟩
  have timed (t : State) : Onward t (startCheckTimer t) := ⟨by simp, by simp⟩
  have compared := moved.trans (compareHome_onward home _)
  exact (compared.trans (decided _)).trans ((passes_onward _).trans ((arrivals_onward _).trans (timed _)))

theorem countForward_onward (s : State) : Onward s (countForward s) := by
  unfold countForward
  dsimp only
  split <;> exact ⟨by simp, by simp⟩

theorem onForwardIndex_onward (home : Bool) (s : State) : Onward s (onForwardIndex home s) :=
  (forwardParts_onward home s).trans ((countForward_onward _).trans (finishLine_onward _))

theorem reverseParts_onward (s : State) : Onward s (reverseParts s) := by
  unfold reverseParts
  dsimp only
  split <;> exact ⟨by simp, by simp⟩

theorem onReverseIndex_onward (s : State) : Onward s (onReverseIndex s) :=
  (reverseParts_onward s).trans ⟨by simp [onReverseIndex], by simp [onReverseIndex]⟩

theorem onCheckSample_onward (check : Bool) (s : State) : Onward s (onCheckSample check s) := by
  unfold onCheckSample
  split
  · exact ⟨by simp, by simp⟩
  · exact .refl s

theorem onJamRise_onward (s : State) : Onward s (onJamRise s) := ⟨by simp [onJamRise], by simp [onJamRise]⟩

/-! ### The outlets -/

theorem onFireDelayExpiry_onward (n : Fin 16) (s : State) : Onward s (onFireDelayExpiry n s) := by
  unfold onFireDelayExpiry
  split
  · split
    · exact ⟨by simp, by simp⟩
    · exact .refl s
  · exact .refl s
  · exact .refl s

theorem onPulseEnd_onward (n : Fin 16) (s : State) : Onward s (onPulseEnd n s) := by
  unfold onPulseEnd
  split
  · exact ⟨by simp, by simp⟩
  · exact .refl s
  · exact .refl s

theorem onAck_onward (n : Fin 16) (s : State) : Onward s (onAck n s) := by
  unfold onAck
  split
  · exact .refl s
  split
  · exact ⟨by simp, by simp⟩
  · exact .refl s
  · exact .refl s

theorem onAckLimitExpiry_onward (n : Fin 16) (s : State) : Onward s (onAckLimitExpiry n s) := by
  unfold onAckLimitExpiry
  split
  · exact ⟨by simp, by simp⟩
  · exact .refl s
  · exact .refl s

theorem onDrop_onward (n : Fin 16) (s : State) : Onward s (onDrop n s) := by
  unfold onDrop
  split
  · exact .refl s
  split
  · exact ⟨by simp, by simp⟩
  · exact .refl s

theorem onFlightMaxMiss_onward (n : Fin 16) (s : State) : Onward s (onFlightMaxMiss n s) := by
  unfold onFlightMaxMiss
  split
  · exact ⟨by simp, by simp⟩
  · exact .refl s

/-! ### Requests -/

theorem serveMeas_onward (f : InFrame) (s : State) : Onward s (serveMeas f s) :=
  ⟨by simp [serveMeas], by simp [serveMeas]⟩

theorem serveStatusQuery_onward (f : InFrame) (s : State) : Onward s (serveStatusQuery f s) := by
  unfold serveStatusQuery
  split <;> exact ⟨by simp, by simp⟩

theorem servePocketQuery_onward (f : InFrame) (s : State) : Onward s (servePocketQuery f s) := by
  unfold servePocketQuery badField
  (repeat' split) <;> exact reply_onward ..

theorem serveOutletQuery_onward (f : InFrame) (s : State) : Onward s (serveOutletQuery f s) := by
  unfold serveOutletQuery
  (repeat' split) <;> exact ⟨by simp, by simp⟩

theorem serveTableWrite_onward (f : InFrame) (s : State) : Onward s (serveTableWrite f s) := by
  unfold serveTableWrite storeEntry
  (repeat' split) <;> exact ⟨by simp, by simp⟩

theorem serveTableRead_onward (f : InFrame) (s : State) : Onward s (serveTableRead f s) := by
  unfold serveTableRead badField
  (repeat' split) <;> exact reply_onward ..

theorem serveTableDiscard_onward (f : InFrame) (s : State) : Onward s (serveTableDiscard f s) := by
  unfold serveTableDiscard
  split <;> exact ⟨by simp, by simp⟩

theorem serveTableCommit_onward (f : InFrame) (s : State) : Onward s (serveTableCommit f s) := by
  unfold serveTableCommit commit
  (repeat' split) <;> exact ⟨by simp, by simp⟩

theorem serveLotStart_onward (f : InFrame) (s : State) : Onward s (serveLotStart f s) := by
  unfold serveLotStart
  (repeat' split) <;> exact ⟨by simp, by simp⟩

theorem abandonRunOut_onward (s : State) : Onward s (abandonRunOut s) := by
  obtain ⟨pending, now⟩ := bookAll_onward s.ringReports (endSlots s)
  rw [abandonRunOut_eq]
  exact ⟨pending, now⟩

theorem serveLotEnd_onward (f : InFrame) (s : State) : Onward s (serveLotEnd f s) := by
  have begun (stage : Stage) (kind : RunKind) : Onward s (beginClearance stage kind s) := ⟨by simp, by simp⟩
  unfold serveLotEnd
  split
  · exact reply_onward ..
  split
  · exact reply_onward ..
  split
  · exact ((begun _ _).trans (abandonRunOut_onward _)).trans ((reply_onward ..).trans (advanceClearance_onward _))
  · exact (begun _ _).trans ((reply_onward ..).trans (advanceClearance_onward _))

theorem serveLotAbort_onward (f : InFrame) (s : State) : Onward s (serveLotAbort f s) := by
  have closed : Onward s (abortClose (abortBookings s)) := by
    obtain ⟨pending, now⟩ := bookAll_onward (s.ringReports ++ s.queueReports) s
    rw [abort_eq]
    exact ⟨pending, now⟩
  unfold serveLotAbort
  split
  · exact reply_onward ..
  split
  · exact reply_onward ..
  · exact closed.trans ⟨by simp, by simp⟩

theorem serveOutletReset_onward (f : InFrame) (s : State) : Onward s (serveOutletReset f s) := by
  unfold serveOutletReset
  dsimp only
  (repeat' split) <;> exact ⟨by simp, by simp⟩

theorem serveClearFault_onward (f : InFrame) (s : State) : Onward s (serveClearFault f s) := by
  unfold serveClearFault
  (repeat' split) <;> exact ⟨by simp, by simp⟩

theorem serveNoticeAck_onward (f : InFrame) (s : State) : Onward s (serveNoticeAck f s) := by
  unfold serveNoticeAck
  (repeat' split) <;> exact ⟨by simp, by simp⟩

theorem serveNoticeMask_onward (f : InFrame) (s : State) : Onward s (serveNoticeMask f s) := by
  unfold serveNoticeMask
  (repeat' split) <;> exact ⟨by simp, by simp⟩

theorem serveNodeAssign_onward (f : InFrame) (s : State) : Onward s (serveNodeAssign f s) := by
  unfold serveNodeAssign
  (repeat' split) <;> exact ⟨by simp, by simp⟩

/-! ### The Dispatcher and the arbiter -/

/-- Every effect of the Dispatcher, by the frame's KIND. -/
theorem effectOf_onward (kind : Option RequestKind) (f : InFrame) (s : State) : Onward s (effectOf kind f s) := by
  match kind with
  | some .meas => exact serveMeas_onward f s
  | some .statusQuery => exact serveStatusQuery_onward f s
  | some .pocketQuery => exact servePocketQuery_onward f s
  | some .outletQuery => exact serveOutletQuery_onward f s
  | some .tableWrite => exact serveTableWrite_onward f s
  | some .tableRead => exact serveTableRead_onward f s
  | some .tableDiscard => exact serveTableDiscard_onward f s
  | some .tableCommit => exact serveTableCommit_onward f s
  | some .lotStart => exact serveLotStart_onward f s
  | some .lotEnd => exact serveLotEnd_onward f s
  | some .lotAbort => exact serveLotAbort_onward f s
  | some .outletReset => exact serveOutletReset_onward f s
  | some .clearFault => exact serveClearFault_onward f s
  | some .noticeAck => exact serveNoticeAck_onward f s
  | some .noticeMask => exact serveNoticeMask_onward f s
  | some .nodeAssign => exact serveNodeAssign_onward f s
  | none => exact reply_onward f .unknownKind [] s

theorem serveHead_onward (kind : Option RequestKind) (f : InFrame) (rest : List InFrame) (s : State) :
    Onward s (serveHead (effectOf kind) f rest s) :=
  .trans (t := setInbound rest s) ⟨by simp, by simp⟩ (effectOf_onward kind f _)

theorem serve_onward (kind : Option RequestKind) (s : State) : Onward s (serve kind (effectOf kind) s) := by
  unfold serve
  split
  · split
    · exact (serveHead_onward kind _ _ s).trans (finishLine_onward _)
    · exact .refl s
  · exact .refl s

theorem serveWaiting_onward (waited : Bool) (s : State) : Onward s (serveWaiting waited s) := by
  unfold serveWaiting
  split
  · split
    · exact serveHead_onward _ _ _ s
    · exact .refl s
  · exact .refl s

theorem arbitrate_onward (waited : Bool) (s : State) : Onward s (arbitrate waited s) := by
  have admitted : Onward s (admitUrgent s) := ⟨by simp, by simp⟩
  have placed (t : State) : Onward t (queueOwed (summaryStep t)) := ⟨by simp, by simp⟩
  exact (admitted.trans (serveWaiting_onward waited _)).trans (placed _)

theorem onTransmissionEnd_onward (s : State) : Onward s (onTransmissionEnd s) := by
  have quiet (ends time : Nat) : Onward s (quietTxd ends (advanceTo time s)) := ⟨by simp, by simp⟩
  have freed (t : State) : Onward t (freePlace t) := ⟨by simp, by simp⟩
  have begun (t : State) : Onward t (startTransmission t) := ⟨by simp, by simp⟩
  unfold onTransmissionEnd
  split
  · exact ((quiet _ _).trans (freed _)).trans ((arbitrate_onward _ _).trans (begun _))
  · exact (quiet _ _).trans (begun _)
  · exact .refl s

theorem onUrgentReply_onward (s : State) : Onward s (onUrgentReply s) := by
  unfold onUrgentReply
  split
  · split
    · exact ⟨by simp, by simp⟩
    · exact .refl s
  · exact .refl s

theorem onSummaryStage_onward (s : State) : Onward s (onSummaryStage s) := by
  unfold onSummaryStage
  split
  · exact ⟨by simp, by simp⟩
  · exact .refl s

theorem onNotice_onward (s : State) : Onward s (onNotice s) := by
  unfold onNotice
  split
  · split
    · exact ⟨by simp, by simp⟩
    · exact .refl s
  · exact .refl s

/-! ### The line -/

/-- HALT, a broadcast MEAS and an append keep the time base as it stands, and so does a CORE_RESET (log 29). -/
theorem acceptKept_onward (f : InFrame) (held : List Byte) (s : State) : Onward s (acceptKept f held s).1 := by
  unfold acceptKept rejectHeld
  (repeat' split) <;> exact ⟨by simp, by simp⟩

theorem takeChar_onward (b : Byte) (s : State) : Onward s (takeChar b s).1 := by
  have assembled (a : Assembler) : Onward s (setAssembler a s) := ⟨by simp, by simp⟩
  have rejected (trouble : LinkTrouble) : Onward s (rejectFrame trouble s) := ⟨by simp, by simp⟩
  unfold takeChar
  split
  · split
    · exact assembled _
    · exact .refl s
  unfold extendFrame completeFrame
  split
  · exact rejected .length
  split
  · split
    · exact rejected .crc
    split
    · exact (assembled .hunt).trans (acceptKept_onward _ _ _)
    · exact assembled .hunt
  · exact assembled _

theorem search_onward (bytes : List Byte) (s : State) : Onward s (search bytes s) :=
  takeChars_keeps (Q := Onward s) (fun b _ onward => onward.trans (takeChar_onward b _)) _ bytes (.refl s)

theorem finishReception_onward (s : State) : Onward s (finishReception s) :=
  .trans (t := timeGap s) ⟨by simp, by simp⟩ (finishLine_onward _)

theorem markChar_onward (s : State) : Onward s (markChar s) := ⟨by simp, by simp⟩

theorem onChar_onward (b : Byte) (s : State) : Onward s (onChar b s) :=
  ((markChar_onward s).trans (search_onward [b] _)).trans (finishReception_onward _)

theorem rejectAndSearch_onward (trouble : LinkTrouble) (s : State) : Onward s (rejectAndSearch trouble s) := by
  unfold rejectAndSearch
  split
  · exact .refl s
  · exact .trans (t := rejectFrame trouble s) ⟨by simp, by simp⟩ (search_onward _ _)

theorem rejectAndDrop_onward (s : State) : Onward s (rejectAndDrop s) := by
  unfold rejectAndDrop
  split
  · exact .refl s
  · exact ⟨by simp, by simp⟩

theorem onGapTimer_onward (s : State) : Onward s (onGapTimer s) := by
  unfold onGapTimer
  split
  · exact ((advanceTo_onward _ s).trans (rejectAndSearch_onward .gap _)).trans (finishReception_onward _)
  · exact .refl s

theorem expireGaps_onward (time fuel : Nat) (s : State) : Onward s (expireGaps time fuel s) := by
  induction fuel generalizing s with
  | zero => exact .refl s
  | succ fuel ih =>
    unfold expireGaps
    split
    · exact (onGapTimer_onward s).trans (ih _)
    · exact .refl s

theorem charEndsAt_onward (time : Nat) (s : State) : Onward s (charEndsAt time s) :=
  (expireGaps_onward time _ s).trans (advanceTo_onward time _)

theorem onFrameReject_onward (trouble : LineTrouble) (s : State) : Onward s (onFrameReject trouble s) := by
  have marked := markChar_onward s
  cases trouble with
  | length len => exact onChar_onward len s
  | framing => exact (marked.trans (rejectAndSearch_onward .framing _)).trans (finishReception_onward _)
  | lineBreak => exact (marked.trans (rejectAndDrop_onward _)).trans (finishReception_onward _)

/-! ### Resets -/

/-- Log 29: a full reset keeps the time base and the waiting commands. -/
theorem fullReset_onward (cause : ResetCause) (held : Bool) (rate : BitRate) (address : Option (Fin 4)) (s : State) :
    Onward s (fullReset cause held rate address s) := ⟨rfl, Nat.le_refl _⟩

theorem beginHold_onward (cause : ResetCause) (s : State) : Onward s (beginHold cause s) := by
  unfold beginHold
  split
  · exact .refl s
  · exact fullReset_onward ..

theorem endHold_onward (rate1 rate0 : Bool) (addr1 addr0 : StrapLevel) (s : State) :
    Onward s (endHold rate1 rate0 addr1 addr0 s) := by
  have announced (cause : ResetCause) (t : State) : Onward t (announceStart cause t) := ⟨by simp, by simp⟩
  unfold endHold
  split
  · exact (fullReset_onward ..).trans (announced _ _)
  · exact .refl s

/-! ### Every command -/

/-- Every command answers a next state, in which the same commands wait and no time is lost. -/
theorem exec_onward (c : Instr) (s : State) : Completes (exec c s) (Onward s) := by
  have row (kind : Option RequestKind) : Completes (.next (whenRunning (serve kind (effectOf kind)) s)) (Onward s) :=
    completes_whenRunning (serve_onward kind) s
  have char (b : Byte) (time : Nat) :
      Completes (.next (whenRunning (fun s => onChar b (charEndsAt time s)) s)) (Onward s) :=
    completes_whenRunning (fun s => (charEndsAt_onward time s).trans (onChar_onward b _)) s
  have jam (level : Bool) : Onward s { s with jam := level } := ⟨rfl, Nat.le_refl _⟩
  cases c with
  | forwardIndex time home => exact completes_edge (onForwardIndex_onward home) s time
  | reverseIndex time => exact completes_edge onReverseIndex_onward s time
  | checkSample check => exact completes_whenRunning (inLot_onward (onCheckSample_onward check)) s
  | fireDelayExpiry n => exact completes_whenRunning (onFireDelayExpiry_onward n) s
  | pulseEnd n => exact completes_whenRunning (onPulseEnd_onward n) s
  | ack time n => exact completes_edge (onAck_onward n) s time
  | ackLimitExpiry n => exact completes_whenRunning (onAckLimitExpiry_onward n) s
  | drop time n => exact completes_edge (onDrop_onward n) s time
  | flightMaxMiss n => exact completes_whenRunning (inLot_onward (onFlightMaxMiss_onward n)) s
  | jamRise time =>
    exact ⟨_, rfl, (jam true).trans
      (whenRunning_onward (fun s => (advanceTo_onward time s).trans (onJamRise_onward _)) _)⟩
  | jamFall time => exact ⟨_, rfl, (jam false).trans (whenRunning_onward (advanceTo_onward time) _)⟩
  | powerOn => exact ⟨_, rfl, beginHold_onward .powerOn s⟩
  | supplyLow => exact ⟨_, rfl, beginHold_onward .supplyLow s⟩
  | external => exact ⟨_, rfl, beginHold_onward .external s⟩
  | resetHoldEnd rate1 rate0 addr1 addr0 => exact ⟨_, rfl, endHold_onward rate1 rate0 addr1 addr0 s⟩
  | frameReject time trouble =>
    exact completes_whenRunning (fun s => (charEndsAt_onward time s).trans (onFrameReject_onward trouble _)) s
  | gapTimer => exact completes_whenRunning onGapTimer_onward s
  | frameComplete time b => exact char b time
  | characterReceived time b => exact char b time
  | halt tag => exact completes_whenRunning (fun _ => ⟨by simp, by simp⟩) s
  | coreReset => exact completes_whenRunning (fun _ => ⟨by simp, by simp⟩) s
  | meas => exact row (some .meas)
  | statusQuery => exact row (some .statusQuery)
  | pocketQuery => exact row (some .pocketQuery)
  | outletQuery => exact row (some .outletQuery)
  | tableWrite => exact row (some .tableWrite)
  | tableRead => exact row (some .tableRead)
  | tableDiscard => exact row (some .tableDiscard)
  | tableCommit => exact row (some .tableCommit)
  | lotStart => exact row (some .lotStart)
  | lotEnd => exact row (some .lotEnd)
  | lotAbort => exact row (some .lotAbort)
  | outletReset => exact row (some .outletReset)
  | clearFault => exact row (some .clearFault)
  | noticeAck => exact row (some .noticeAck)
  | noticeMask => exact row (some .noticeMask)
  | nodeAssign => exact row (some .nodeAssign)
  | unknownKind => exact row none
  | transmissionEnd => exact completes_whenRunning onTransmissionEnd_onward s
  | urgentReply => exact completes_whenRunning onUrgentReply_onward s
  | summaryStage => exact completes_whenRunning onSummaryStage_onward s
  | notice => exact completes_whenRunning onNotice_onward s

/-- Settles O2: each arm of `exec` answers a next state, and every part of every event keeps the waiting commands and moves
the time base at most up. -/
theorem everyCommandCompletes : Obligations.EveryCommandCompletes := by
  intro c s
  obtain ⟨t, run, onward⟩ := exec_onward c s
  exact ⟨t, run, onward.pending, onward.now⟩

end Sys2Proof.Machine

/-! What a step is made of, said once for the laws about the shape of the Tracker and the lengths of the queues (R3, R8, R27,
R82, R134, R166, R167, R170): most of an event keeps the shape, and a few moves change it. -/

namespace Sys2Proof.Machine

/-! ### Changes that keep the shape of the blocks -/


/-- From `s` to `t` the ring, the stack, load_pocket and the check delay keep their shape, the lot stays open or closed, the
active set stays, and no queue grows past its limit. -/
structure Steady (s t : State) : Prop where
  ring : t.tracker.ring.length = s.tracker.ring.length
  stack : t.tracker.stack.length = s.tracker.stack.length
  loadPocket : t.tracker.loadPocket = s.tracker.loadPocket
  checkTimer : t.tracker.checkTimer = s.tracker.checkTimer
  lot : t.lotOpen = s.lotOpen
  configured : t.sup.engine = .unconfigured ↔ s.sup.engine = .unconfigured
  active : t.tables.active = s.tables.active
  later : t.sup.faults.later.length ≤ max s.sup.faults.later.length Config.laterLimit
  inbound : t.lrx.inbound.length ≤ max s.lrx.inbound.length Config.inboundLimit
  outbound : t.ltx.outbound.length ≤ max s.ltx.outbound.length Config.outboundLimit
  urgent : t.lrx.urgent.length ≤ max s.lrx.urgent.length Config.urgentLimit
  queues : ∀ n : Fin 16, s.outlets[n].queueBound → t.outlets[n].queueBound

theorem Steady.refl (s : State) : Steady s s :=
  ⟨rfl, rfl, rfl, rfl, rfl, .rfl, rfl, le_max_left .., le_max_left .., le_max_left .., le_max_left .., fun _ h => h⟩

theorem Steady.trans {s t u : State} (h : Steady s t) (h' : Steady t u) : Steady s u where
  ring := h'.ring.trans h.ring
  stack := h'.stack.trans h.stack
  loadPocket := h'.loadPocket.trans h.loadPocket
  checkTimer := h'.checkTimer.trans h.checkTimer
  lot := h'.lot.trans h.lot
  configured := h'.configured.trans h.configured
  active := h'.active.trans h.active
  later := h'.later.trans (max_le h.later (le_max_right ..))
  inbound := h'.inbound.trans (max_le h.inbound (le_max_right ..))
  outbound := h'.outbound.trans (max_le h.outbound (le_max_right ..))
  urgent := h'.urgent.trans (max_le h.urgent (le_max_right ..))
  queues n hn := h'.queues n (h.queues n hn)

/-- The Tracker, the engine state, the fault record, the active set and the line are kept, and no confirmation queue grows
past its limit. -/
theorem Steady.of_outlets {s t : State} (tracker : t.tracker = s.tracker) (sup : t.sup = s.sup)
    (tables : t.tables = s.tables) (lrx : t.lrx = s.lrx) (ltx : t.ltx = s.ltx)
    (queues : ∀ n : Fin 16, s.outlets[n].queueBound → t.outlets[n].queueBound) : Steady s t := by
  have lot := State.lotOpen_congr sup
  refine ⟨?_, ?_, ?_, ?_, lot, ?_, ?_, ?_, ?_, ?_, ?_, queues⟩ <;> simp [tracker, sup, tables, lrx, ltx]

theorem Steady.foldl {α : Type} {f : State → α → State} (s : State) (kept : ∀ s a, Steady s (f s a)) (l : List α) :
    Steady s (l.foldl f s) :=
  List.foldlRecOn (motive := Steady s) l f (.refl s) fun t ht a _ => ht.trans (kept t a)

theorem FaultRecord.append_later (f : FaultRecord) (e : FaultEntry) :
    (f.append e).later.length ≤ max f.later.length Config.laterLimit := by
  unfold FaultRecord.append
  split
  · simp; omega
  · simp

/-- Fewer entries keep the bound of an outlet's queue. -/
theorem Outlet.queueBound.mono {o o' : Outlet} (h : o.queueBound) (drive : o'.drive = o.drive)
    (queue : o'.queue.length ≤ o.queue.length) : o'.queueBound := by
  unfold Outlet.queueBound at h ⊢
  rw [drive]
  split at h <;> omega

/-- A QUIET drive keeps no place in its outlet's queue. -/
theorem Outlet.queueBound.quiet {o o' : Outlet} (h : o.queueBound) (drive : o'.drive = .quiet)
    (queue : o'.queue.length ≤ o.queue.length) : o'.queueBound := by
  unfold Outlet.queueBound at h ⊢
  rw [drive]
  split at h <;> exact queue.trans (by omega)

/-- The line's queues stay within their limits, and the blocks are kept. -/
theorem Steady.of_line {s t : State} (same : SameBlocks s t)
    (inbound : t.lrx.inbound.length ≤ max s.lrx.inbound.length Config.inboundLimit)
    (outbound : t.ltx.outbound.length ≤ max s.ltx.outbound.length Config.outboundLimit)
    (urgent : t.lrx.urgent.length ≤ max s.lrx.urgent.length Config.urgentLimit) : Steady s t := by
  have lot := State.lotOpen_congr same.sup
  refine ⟨?_, ?_, ?_, ?_, lot, ?_, same.active, ?_, inbound, outbound, urgent, ?_⟩ <;>
    simp [same.tracker, same.sup, same.outlets]

/-- A change of the Supervisor that keeps the engine state and the fault record. -/
theorem Steady.of_sup {s t : State} (tracker : t.tracker = s.tracker) (engine : t.sup.engine = s.sup.engine)
    (faults : t.sup.faults = s.sup.faults) (outlets : t.outlets = s.outlets) (tables : t.tables = s.tables)
    (lrx : t.lrx = s.lrx) (ltx : t.ltx = s.ltx) : Steady s t := by
  have lot : t.lotOpen = s.lotOpen := by simp [State.lotOpen, engine]
  refine ⟨?_, ?_, ?_, ?_, lot, ?_, ?_, ?_, ?_, ?_, ?_, ?_⟩ <;>
    simp [tracker, engine, faults, outlets, tables, lrx, ltx]

namespace Steady

variable (s : State)

/-! ### Records, outlets and notices -/

theorem modRing (k : Nat) (f : PocketRecord → PocketRecord) : Steady s (modRing k f s) := by
  refine ⟨?_, ?_, ?_, ?_, rfl, ?_, ?_, ?_, ?_, ?_, ?_, ?_⟩ <;> simp

theorem modStack (d : Nat) (f : PocketRecord → PocketRecord) : Steady s (modStack d f s) := by
  refine ⟨?_, ?_, ?_, ?_, rfl, ?_, ?_, ?_, ?_, ?_, ?_, ?_⟩ <;> simp [Machine.modStack]

theorem modPlace (p : Place) (f : PocketRecord → PocketRecord) : Steady s (modPlace p f s) := by
  cases p with
  | ring k => exact modRing s k f
  | stack d => exact modStack s d f

theorem suspected : Steady s (setRing (s.tracker.ring.map PocketRecord.suspect) s) := by
  refine ⟨?_, ?_, ?_, ?_, rfl, ?_, ?_, ?_, ?_, ?_, ?_, ?_⟩ <;> simp [setRing]

theorem modOutlet (n : Fin 16) {f : Outlet → Outlet} (kept : s.outlets[n].queueBound → (f s.outlets[n]).queueBound) :
    Steady s (modOutlet n f s) := by
  refine of_outlets rfl rfl rfl rfl rfl fun m hm => ?_
  by_cases same : n = m
  · subst same
    simpa using kept hm
  · simpa [modOutlet_ne same] using hm

theorem mapOutlets {f : Fin 16 → Outlet → Outlet} (kept : ∀ n (o : Outlet), o.queueBound → (f n o).queueBound) :
    Steady s (mapOutlets f s) :=
  of_outlets (by simp) (by simp) (by simp) (by simp) (by simp) fun m hm => by
    rw [Fin.getElem_fin] at hm ⊢
    rw [mapOutlets_get]
    exact kept m _ hm

theorem endSlots : Steady s (endSlots s) := mapOutlets s fun _ _ h => h

theorem freeSlot (n : Fin 16) : Steady s (Machine.modOutlet n (fun o => { o with slot := .free }) s) :=
  modOutlet s n fun h => h

/-- A drive that returns to QUIET keeps no place in the confirmation queue any more. -/
theorem quietDrive (n : Fin 16) : Steady s (Machine.modOutlet n (fun o => { o with drive := .quiet }) s) :=
  modOutlet s n fun h => h.quiet rfl le_rfl

theorem release (r : PocketRecord) : Steady s (release r s) :=
  of_outlets (by simp) (by simp) (by simp) (by simp) (by simp) fun n hn => (release_queueBound r s n n.isLt).mpr hn

theorem releaseIfDecided (r : PocketRecord) : Steady s (releaseIfDecided r s) := by
  unfold Machine.releaseIfDecided
  split
  · exact release s r
  · exact refl s

theorem raiseNotice (c : Condition) (detail : Nat) : Steady s (raiseNotice c detail s) :=
  of_line (raiseNotice_same s c detail) (by simp) (by simp) (by simp)

theorem offerReport (r : SortReport) : Steady s (offerReport r s) := by
  refine of_line ⟨rfl, rfl, rfl, rfl⟩ (by simp) ?_ (by simp)
  exact (offerReport_length r s).trans (max_le_max le_rfl (by decide))

theorem book (pocket : Nat) (report : SortReport) : Steady s (book pocket report s) :=
  ((of_sup (s := s) (t := { s with sup := { s.sup with unaccounted := countUp s.sup.unaccounted } }) rfl rfl rfl rfl rfl rfl
    rfl).trans (raiseNotice _ .unaccounted pocket)).trans (offerReport _ report)

theorem bookRecord (r : PocketRecord) (pocket : Nat) : Steady s (bookRecord r pocket s) := book s _ _

theorem discard (reason : Discard) : Steady s (discard reason s) :=
  (of_sup (s := s) (t := { s with sup := { s.sup with lastDiscard := some reason } }) rfl rfl rfl rfl rfl rfl rfl).trans
    (raiseNotice _ _ _)

/-! ### Faults -/

/-- R135: a fault halts an open lot, or joins the later faults within their limit. -/
theorem raiseFault (code : FaultCode) (pocket : Nat) (seq : Option Nat) : Steady s (raiseFault code pocket seq s) := by
  have halted (ret : RunState) (e : FaultEntry) (open_ : s.lotOpen = true) : Steady s (enterHalted ret e s) := by
    have configured : s.sup.engine ≠ .unconfigured := fun engine => by simp [State.lotOpen, engine] at open_
    refine ⟨rfl, rfl, rfl, rfl, open_.symm, by simp [enterHalted, configured], rfl, ?_, ?_, ?_, ?_, ?_⟩
    · simp [enterHalted]
    · simp
    · simp
    · simp
    · exact (endSlots s).queues
  unfold Machine.raiseFault
  split
  · next engine => exact halted _ _ (by simp [State.lotOpen, engine])
  · next engine => exact halted _ _ (by simp [State.lotOpen, engine])
  · exact ⟨rfl, rfl, rfl, rfl, rfl, .rfl, rfl, FaultRecord.append_later .., by simp, by simp, by simp, fun _ h => h⟩
  · exact refl s
  · exact refl s

/-- R13: the releases of a HOME mismatch. -/
theorem releases (records : List PocketRecord) :
    Steady s (records.foldl (fun s r => if r.counted then Machine.releaseIfDecided r s else s) s) := by
  refine foldl s (fun t r => ?_) records
  split
  · exact releaseIfDecided t r
  · exact refl t

theorem strandSlot (n : Fin 16) : Steady s (strandSlot n s) := by
  rcases strandSlot_cases n s with ⟨_, e⟩ | ⟨_, _, e | ⟨k, r, _, _, _, e⟩⟩ <;> rw [e]
  · exact refl s
  · exact freeSlot s n
  · exact ((freeSlot s n).trans (release _ r)).trans (modRing _ k _)

theorem strandClaim (claim : Option RecordName) : Steady s (strandClaim claim s) := by
  rcases strandClaim_cases claim s with e | ⟨_, k, r, _, _, _, _, e⟩ <;> rw [e]
  · exact refl s
  · exact (release s r).trans (modRing _ k _)

theorem faultOutlet (n : Fin 16) : Steady s (faultOutlet n s) := by
  unfold Machine.faultOutlet
  split
  · exact strandSlot s n
  · exact ((modOutlet s n fun h => h).trans (raiseNotice _ .outletFault n.val)).trans (strandSlot _ n)

/-! ### Misses and confirmations -/


theorem accountMiss (n : Fin 16) : Steady s (accountMiss n s) := by
  have missed : Steady s (Machine.modOutlet n Outlet.miss s) := modOutlet s n fun h => h
  unfold Machine.accountMiss
  dsimp only
  split
  · exact missed.trans (faultOutlet _ n)
  · exact missed

/-- Entries that leave a confirmation queue. -/
theorem dropEntries (n : Fin 16) (f : List Entry → List Entry) (fewer : ∀ q, (f q).length ≤ q.length) :
    Steady s (Machine.modOutlet n (fun o => { o with queue := f o.queue }) s) :=
  modOutlet s n fun h => h.mono rfl (fewer _)

theorem missEntryOf (name : RecordName) : Steady s (missEntryOf name s) := by
  unfold Machine.missEntryOf
  split
  · exact (dropEntries s _ (fun q => q.eraseP fun e => e.name == name) fun q => q.length_eraseP_le).trans (accountMiss _ _)
  · exact refl s

theorem missFate (n : Fin 16) (e : Entry) : Steady s (missFate n e s) := by
  unfold Machine.missFate
  split
  · split
    · split
      · exact (book s _ _).trans (modRing _ _ _)
      · exact modRing s _ _
    · exact modRing s _ _
  · split
    · exact (book s _ _).trans (modStack _ _ _)
    · exact modStack s _ _
  · split
    · exact book s _ _
    · exact refl s

theorem missHead {n : Fin 16} {e : Entry} {rest : List Entry} (queue : s.outlets[n].queue = e :: rest) :
    Steady s (missHead n e rest s) :=
  ((modOutlet s n fun h => h.mono rfl (by rw [queue]; exact Nat.le_succ _)).trans (accountMiss _ n)).trans (missFate _ n e)

theorem confirmHead {n : Fin 16} (cfg : OutletEntry) {e : Entry} {rest : List Entry}
    (queue : s.outlets[n].queue = e :: rest) : Steady s (confirmHead n cfg e rest s) := by
  have confirmed : Steady s (Machine.modOutlet n (fun o => o.confirm e.counted cfg.capacity rest) s) :=
    modOutlet s n fun h => h.mono rfl (by rw [queue]; exact Nat.le_succ _)
  have recovered (t : State) : Steady t (countRecovered e.counted t) := of_sup rfl rfl rfl rfl rfl rfl rfl
  have full (before : Nat) (t : State) : Steady t (raiseFull n e cfg before t) := by
    have noticed : Steady t (if before + 1 = cfg.capacity then Machine.raiseNotice .outletFull n.val t else t) := by
      split
      · exact raiseNotice t _ _
      · exact refl t
    unfold raiseFull
    dsimp only
    split
    · exact noticed.trans (raiseFault _ _ _ _)
    · exact noticed
  have told (t : State) : Steady t (confirmRecord n e cfg.sweep t) := by
    unfold confirmRecord
    split
    · exact (modPlace t _ _).trans (offerReport _ _)
    · exact offerReport t _
  exact ((confirmed.trans (recovered _)).trans (full _ _)).trans (told _)

theorem strayDrop (n : Fin 16) : Steady s (strayDrop n s) :=
  (of_sup (s := s) (t := { s with sup := { s.sup with strays := countUp s.sup.strays } }) rfl rfl rfl rfl rfl rfl
    rfl).trans (raiseNotice _ _ _)

theorem takeDrop (n : Fin 16) (cfg : OutletEntry) : Steady s (takeDrop n cfg s) := by
  unfold Machine.takeDrop
  split
  · next queue =>
    split
    · exact strayDrop s n
    · exact confirmHead s cfg queue
  · exact strayDrop s n

/-! ### Fires -/

/-- R73, R75: a fire puts one more entry into a queue that has room for it, its drive not in STROBE. -/
theorem recordFire (n : Fin 16) (k : Nat) (r : PocketRecord) (room : s.outlets[n].queue.length < Config.queueLimit)
    (drive : ∀ expires claim, s.outlets[n].drive ≠ .strobe expires claim) : Steady s (recordFire n k r s) := by
  refine (modOutlet s n fun _ => ?_).trans (modRing _ k _)
  unfold Outlet.queueBound
  dsimp only
  split
  · next strobe => exact absurd strobe (drive _ _)
  · simpa using room
  · simpa using room

theorem backlog (n : Fin 16) (name : RecordName) : Steady s (backlog n name s) := by
  have freed := freeSlot s n
  unfold Machine.backlog
  dsimp only
  split
  · split
    · split
      · exact (freed.trans (releaseIfDecided _ _)).trans (modRing _ _ _)
      · exact freed
    · exact freed
  · exact freed

theorem beginFire (n : Fin 16) (name : RecordName) (room : s.outlets[n].queue.length < Config.queueLimit) :
    Steady s (beginFire n name s) := by
  have freed := freeSlot s n
  unfold Machine.beginFire
  dsimp only
  split
  · split
    · split
      · split
        · refine (freed.trans (modOutlet _ n fun _ => ?_)).trans (recordFire _ n _ _ ?_ ?_)
          · simpa [Outlet.queueBound] using le_of_lt room
          · simpa using room
          · simp
        · exact freed.trans (modOutlet _ n fun _ => by simpa [Outlet.queueBound] using room)
      · exact freed
    · exact freed
  · exact freed

theorem fireTests (n : Fin 16) (name : RecordName) : Steady s (fireTests n name s) := by
  unfold Machine.fireTests
  split
  · exact backlog s n name
  · next room =>
    split
    · exact beginFire s n name (by omega)
    · exact modOutlet s n fun h => h

theorem retestDue (n : Fin 16) : Steady s (retestDue n s) := by
  unfold Machine.retestDue
  split
  · split
    · exact fireTests s n _
    · exact refl s
  · exact refl s
  · exact refl s

theorem startDelay (n : Fin 16) (name : RecordName) (fireDelay : Nat) : Steady s (startDelay n name fireDelay s) := by
  unfold Machine.startDelay
  split
  · exact fireTests s n name
  · exact modOutlet s n fun h => h

/-- R75: a strobe's place in the confirmation queue is taken by its record. -/
theorem answerStrobe {n : Fin 16} {expires : Nat} {claim : Option RecordName}
    (drive : s.outlets[n].drive = .strobe expires claim) : Steady s (answerStrobe n claim s) := by
  have quiet := quietDrive s n
  have fired (k : Nat) (r : PocketRecord) :
      Steady s (Machine.recordFire n k r (Machine.modOutlet n (fun o => { o with drive := .quiet }) s)) := by
    refine Steady.trans ?_ (modRing _ k _)
    rw [modOutlet_modOutlet]
    refine modOutlet s n fun room => ?_
    have room : s.outlets[n].queue.length < Config.queueLimit := by
      rwa [Outlet.queueBound, drive] at room
    simpa [Outlet.queueBound] using room
  unfold Machine.answerStrobe
  dsimp only
  split
  · split
    · split
      · split
        · exact fired _ _
        · exact quiet
      · exact quiet
    · exact quiet
  · exact quiet

/-! ### Passes and arrivals -/

theorem pass (n : Fin 16) : Steady s (pass n s) := by
  unfold Machine.pass
  split
  · split
    · split
      · exact (release s _).trans (modRing _ _ _)
      · exact refl s
    · exact refl s
  · exact refl s

theorem arrival (n : Fin 16) (e : OutletEntry) (r : PocketRecord) : Steady s (arrival n e r s) := by
  unfold Machine.arrival
  split
  · exact refl s
  · split
    · exact startDelay s n _ _
    · exact startDelay s n _ _
    · exact (release s r).trans (modRing _ _ _)
    · exact refl s

theorem handOff (n : Fin 16) : Steady s (handOff n s) := by
  unfold Machine.handOff
  split
  · split
    · split
      · exact refl s
      · split
        · split
          · exact startDelay s n _ _
          · exact refl s
        · split
          · exact arrival s n _ _
          · exact refl s
    · exact refl s
  · exact refl s

theorem passes : Steady s (passes s) :=
  (foldl s (f := fun s n => Machine.pass n s) (fun t n => pass t n) allOutlets).trans (endSlots _)

theorem arrivals : Steady s (arrivals s) := foldl s (f := fun s n => Machine.handOff n s) (fun t n => handOff t n) allOutlets

/-! ### MEAS and the deadlines -/

theorem finalVerdict (k : Nat) (v : Verdict) (reason : Reason) : Steady s (finalVerdict k v reason s) :=
  (modOutlet s _ fun h => h).trans (modRing _ k _)

theorem deadlines : Steady s (deadlines s) := by
  have verdict (st : Station) (t : State) : Steady t (verdictDeadline st t) := by
    unfold verdictDeadline
    split
    · split
      · split
        · exact finalVerdict t _ _ _
        · exact refl t
      · exact refl t
    · exact refl t
  have contact : Steady s (contactDeadline s) := by
    unfold contactDeadline
    split
    · exact modRing s _ _
    · exact refl s
  exact (contact.trans (verdict _ _)).trans (verdict _ _)

theorem applyResult (k : Nat) (r : PocketRecord) (m : Meas) : Steady s (applyResult k r m s) := by
  have added : Steady s (addResult k m s) := modRing s k _
  have counted (t : State) : Steady t (countPart k t) :=
    (of_sup (s := t) (t := { t with sup := { t.sup with present := countUp t.sup.present } }) rfl rfl rfl rfl rfl rfl
      rfl).trans (modRing _ k _)
  have verdict (v : Verdict) (reason : Reason) (t : State) : Steady t (Machine.finalVerdict k v reason t) :=
    finalVerdict t k v reason
  have contactOpen (t : State) : Steady t (contactOpen k m.status t) := by
    unfold Machine.contactOpen
    split
    · exact (counted t).trans (modRing _ k _)
    · exact modRing t k _
    · exact (counted t).trans (verdict _ _ _)
    all_goals exact refl t
  have contactVoid (t : State) : Steady t (contactVoid k m.status t) := by
    unfold Machine.contactVoid
    split
    · exact (counted t).trans (verdict _ _ _)
    · exact (counted t).trans (verdict _ _ _)
    all_goals exact refl t
  have classified (d : Int) (t : State) : Steady t (classify k d t) := by
    unfold classify
    split
    · exact verdict _ _ t
    · split
      · exact modRing t k _
      · exact verdict _ _ t
  have value (t : State) : Steady t (valueResult k m t) := by
    unfold valueResult valueOk
    split
    · dsimp only
      split
      · exact (modRing t k _).trans (verdict _ _ _)
      · exact (modRing t k _).trans (classified _ _)
    · exact verdict _ _ t
    · exact verdict _ _ t
    · exact verdict _ _ t
    all_goals exact refl t
  have judged (drift : Nat) (t : State) : Steady t (judgeDrift k r drift t) := by
    unfold judgeDrift
    split
    · exact verdict _ _ t
    · split
      · exact verdict _ _ t
      · exact refl t
  have recheck (t : State) : Steady t (recheckResult k r m t) := by
    unfold recheckResult
    split
    · exact (modRing t k _).trans (judged _ _)
    · exact verdict _ _ t
    · exact verdict _ _ t
    · exact verdict _ _ t
    all_goals exact refl t
  unfold Machine.applyResult
  split
  · split
    · exact added.trans (contactOpen _)
    · exact added.trans (contactVoid _)
  · exact added.trans (value _)
  · exact added.trans (recheck _)

theorem takeMeas (f : InFrame) : Steady s (takeMeas f s) := by
  have placed (m : Meas) (e : StationEntry) : Steady s (placeResult m e s) := by
    unfold placeResult
    split
    · exact discard s _
    · split
      · split
        · exact discard s _
        · exact applyResult s _ _ m
      · exact refl s
  unfold Machine.takeMeas
  split
  · exact discard s _
  split
  · exact discard s _
  split
  · exact discard s _
  split
  · exact placed _ _
  · exact discard s _

/-! ### The check position -/

theorem prepareUnchecked (r : PocketRecord) : Steady s (prepareUnchecked r s) := by
  unfold Machine.prepareUnchecked
  split
  · exact release s r
  · exact missEntryOf s r.name
  all_goals exact refl s

theorem handleUnchecked : Steady s (handleUnchecked s) := by
  unfold Machine.handleUnchecked
  split
  · split
    · exact refl s
    · exact ((prepareUnchecked s _).trans (modRing _ _ _)).trans (raiseFault _ _ _ _)
  · exact refl s

theorem samplePresent (r : PocketRecord) : Steady s (samplePresent r s) := by
  have taken : Steady s (takeBack r s) := by
    unfold takeBack
    split
    · exact missEntryOf s r.name
    · exact releaseIfDecided s r
  rw [samplePresent_eq]
  split
  · exact refl s
  · exact (taken.trans (modRing _ _ _)).trans (raiseFault _ _ _ _)

theorem sampleClear (r : PocketRecord) : Steady s (sampleClear r s) := by
  have settled (phase : Phase) (t : State) :
      Steady t (if r.counted then bookAtCheck r t else Machine.modRing t.z (.settle phase) t) := by
    split
    · exact (bookRecord t _ _).trans (modRing _ _ _)
    · exact modRing t _ _
  unfold Machine.sampleClear
  split
  case h_7 | h_9 | h_10 => exact settled _ s
  case h_8 =>
    rw [← State.z_congr (release_tables r s)]
    exact (release s r).trans (settled .void _)
  all_goals exact refl s

theorem takeSample (check : Bool) : Steady s (takeSample check s) := by
  have marked : Steady s (markChecked s) := modRing s _ _
  unfold Machine.takeSample
  split
  · split
    · exact marked.trans (samplePresent _ _)
    · exact marked.trans (sampleClear _ _)
  · exact refl s

theorem discardBottom (r : PocketRecord) : Steady s (discardBottom r s) := by
  have released := releaseIfDecided s r
  unfold Machine.discardBottom
  dsimp only
  split
  · exact released.trans (bookRecord _ _ _)
  · exact released

/-! ### Clearance and the ends of a lot -/

theorem setStage (stage : Stage) : Steady s (setStage stage s) := of_sup rfl rfl rfl rfl rfl rfl rfl

theorem countIndex (by_ : Int) : Steady s (countIndex by_ s) := of_sup rfl rfl rfl rfl rfl rfl rfl

/-- The stage tests up to the close of the lot. -/
theorem stages : Steady s (settleStep (unsettleStep (runOutStep s))) := by
  have staged (c : Prop) [Decidable c] (stage : Stage) (t : State) :
      Steady t (if c then Machine.setStage stage t else t) := by
    split
    · exact setStage t stage
    · exact refl t
  exact ((staged _ _ s).trans (staged _ _ _)).trans (staged _ _ _)

theorem beginClearance (stage : Stage) (kind : RunKind) (open_ : s.lotOpen = true) :
    Steady s (beginClearance stage kind s) := by
  have configured : s.sup.engine ≠ .unconfigured := fun engine => by simp [State.lotOpen, engine] at open_
  by_cases halted : s.sup.engine = .halted <;>
    exact ⟨rfl, rfl, rfl, rfl, by rw [open_]; simp [State.lotOpen, Machine.beginClearance, halted],
      by simp [Machine.beginClearance, halted, configured], rfl, le_max_left .., le_max_left .., le_max_left ..,
      le_max_left .., fun _ h => h⟩

theorem abandonRunOut : Steady s (abandonRunOut s) := by
  refine (endSlots s).trans (foldl _ (f := fun s k => abandonRecord k s) (fun t k => ?_) _)
  unfold abandonRecord
  split
  · exact refl t
  · split
    · exact ((releaseIfDecided t _).trans (bookRecord _ _ _)).trans (modRing _ _ _)
    · split
      · exact modRing t _ _
      · exact modRing t _ _
      · exact modRing t _ _
      all_goals exact refl t

theorem leaveHalted (halted : s.sup.engine = .halted) : Steady s (leaveHalted s) := by
  have running : (Machine.leaveHalted s).sup.engine = .sorting ∨ (Machine.leaveHalted s).sup.engine = .clearing := by
    cases ret : s.sup.returnState with
    | none => simp [Machine.leaveHalted, ret]
    | some ret' => cases ret' <;> simp [Machine.leaveHalted, ret]
  refine ⟨rfl, rfl, rfl, rfl, ?_, ?_, rfl, Nat.zero_le _, le_max_left .., le_max_left .., le_max_left .., fun _ h => h⟩
  · rcases running with engine | engine <;> simp [State.lotOpen, halted, engine]
  · rcases running with engine | engine <;> simp [halted, engine]

theorem emptyBin (n : Fin 16) : Steady s (emptyBin n s) := modOutlet s n fun h => h

end Steady

/-! ### Reports -/

/-- SORT_REPORTs never take the outbound queue past 28 frames (R170). -/
theorem LineTransmitter.offerAll_length (reports : List SortReport) (l : LineTransmitter) :
    (l.offerAll reports).outbound.length ≤ max l.outbound.length Config.reportLimit := by
  refine List.foldlRecOn (motive := fun t : LineTransmitter => t.outbound.length ≤ max l.outbound.length Config.reportLimit)
    reports _ (le_max_left ..) fun t ht r _ => ?_
  unfold LineTransmitter.offer
  split
  · next room =>
    refine le_max_of_le_right ?_
    simpa using room
  · exact ht

/-! ### What a step is made of -/

/-- R20: the ring below offset 0, the stack top at Z, and load_pocket one step back. -/
def moveDown (s : State) : State := moveLoadPocket (-1) (popToZ (setRing s.tracker.ring.tail s))

/-- A lot that is open in `s` has closed in `t`. -/
structure Closes (s t : State) : Prop where
  lot : s.lotOpen = true
  tracker : t.tracker = { s.tracker with ring := [], stack := [], checkTimer := none }
  engine : t.sup.engine = .ready
  active : t.tables.active = s.tables.active
  later : t.sup.faults.later.length ≤ s.sup.faults.later.length
  inbound : t.lrx.inbound = s.lrx.inbound
  outbound : t.ltx.outbound.length ≤ max s.ltx.outbound.length Config.outboundLimit
  urgent : t.lrx.urgent = s.lrx.urgent
  queues : ∀ n : Fin 16, s.outlets[n].queueBound → t.outlets[n].queueBound

/-- One of the changes that events are made of. -/
inductive Change : State → State → Prop
  | steady {s t} : Steady s t → Change s t
  | up {s} : s.lotOpen = true → Change s (moveUp s)
  | down {s} : s.lotOpen = true → Change s (moveDown s)
  | home {s} : Change s { s with tracker := { s.tracker with loadPocket := some 0 } }
  | timer {s timer} : timer = none ∨ s.lotOpen = true → Change s { s with tracker := { s.tracker with checkTimer := timer } }
  | closes {s t} : Closes s t → Change s t
  | opens {s lotId loadPocket} : s.sup.engine = .ready → loadPocket < s.dial.pockets →
      Change s (openLot lotId loadPocket s)
  | activates {s} : s.lotOpen = false → s.tables.staged.invalid = none → Change s (activate s)
  | coreReset {s} : Change s (coreReset s)
  | fullReset {s} (cause held rate address) : Change s (fullReset cause held rate address s)

/-- Changes one after another. -/
abbrev Changes : State → State → Prop := Relation.ReflTransGen Change

theorem Steady.changes {s t : State} (h : Steady s t) : Changes s t := .single (.steady h)

namespace Changes

variable (s : State)

theorem line {s t : State} (same : SameBlocks s t) (lrx : t.lrx = s.lrx) (ltx : t.ltx = s.ltx) : Changes s t :=
  (Steady.of_line same (by simp [lrx]) (by simp [ltx]) (by simp [lrx])).changes

/-! ### The ends of events -/

theorem queueNotice_length (p : Vector NoticeCell 11 × LineTransmitter) (c : Condition) :
    (queueNotice p c).2.outbound.length ≤ max p.2.outbound.length Config.outboundLimit := by
  unfold queueNotice
  split
  · next owed =>
    have room := owed.2
    simp
    omega
  · exact le_max_left ..

theorem foldl_queueNotice_length (cs : List Condition) (p : Vector NoticeCell 11 × LineTransmitter) :
    (cs.foldl queueNotice p).2.outbound.length ≤ max p.2.outbound.length Config.outboundLimit :=
  List.foldlRecOn (motive := fun q => q.2.outbound.length ≤ max p.2.outbound.length Config.outboundLimit) cs queueNotice
    (le_max_left ..) fun q hq c _ => (queueNotice_length q c).trans (max_le hq (le_max_right ..))

theorem queueOwed_length : (queueOwed s).ltx.outbound.length ≤ max s.ltx.outbound.length Config.outboundLimit := by
  have queued : (Machine.queueOwed s).ltx = (Condition.all.foldl queueNotice (s.notices, s.ltx)).2 := by
    simp only [Machine.queueOwed]
  rw [queued]
  exact foldl_queueNotice_length ..

theorem queueOwed : Changes s (queueOwed s) :=
  (Steady.of_line (queueOwed_same s) (by simp) (queueOwed_length s) (by simp)).changes

theorem startTransmission : Changes s (startTransmission s) :=
  (Steady.of_line (startTransmission_same s) (by simp) (by simp) (by simp)).changes

theorem finishLine : Changes s (finishLine s) := by
  refine .trans ?_ (startTransmission _)
  unfold queueOwedInEvent
  split
  · exact .refl
  · exact queueOwed s

theorem enqueue (tag : Byte) (body : OutBody) (room : s.ltx.outbound.length < Config.outboundLimit) :
    Changes s (enqueue tag body s) :=
  (Steady.of_line (enqueue_same s tag body) (by simp) (by simp; omega) (by simp)).changes

/-- R154, R155: the SUMMARY stage closes a lot in CLEARING, with a place for its summary. -/
theorem summaryStep : Changes s (summaryStep s) := by
  unfold Machine.summaryStep
  split
  · next kind close =>
    obtain ⟨_, -, -, clearing, room, -⟩ := State.closeKind_eq_some_iff.mp close
    refine .single (.closes ?_)
    exact {
      lot := by simp [State.lotOpen, clearing]
      tracker := closeLot_tracker kind s
      engine := by rw [closeLot_sup]
      active := by simp
      later := by rw [closeLot_sup]
      inbound := by simp
      outbound := by rw [closeLot_outbound]; simp; omega
      urgent := by simp
      queues := fun n hn => by
        rw [closeLot_outlet]
        exact hn.quiet rfl le_rfl }
  · exact .refl

theorem advanceClearance : Changes s (advanceClearance s) := (Steady.stages s).changes.trans (summaryStep _)

theorem finishEvent : Changes s (finishEvent s) := (advanceClearance s).trans (finishLine _)

theorem whenRunning {f : State → State} (changes : ∀ s, Changes s (f s)) : Changes s (whenRunning f s) := by
  unfold Machine.whenRunning
  split
  · exact .refl
  · exact changes s

theorem inLot {f : State → State} (changes : ∀ s, s.lotOpen = true → Changes s (f s)) : Changes s (inLot f s) := by
  unfold Machine.inLot
  split
  · next lot => exact changes s lot
  · exact .refl

theorem advanceTo (time : Nat) : Changes s (advanceTo time s) := line (advanceTo_same s time) rfl rfl

theorem edge {f : State → State} (changes : ∀ s, s.lotOpen = true → Changes s (f s)) (time : Nat) :
    Changes s (Machine.whenRunning (fun s => Machine.inLot f (Machine.advanceTo time s)) s) :=
  whenRunning s fun s => (advanceTo s time).trans (inLot _ changes)

/-! ### The dial -/

theorem stopCheckTimer : Changes s (stopCheckTimer s) := .single (.timer (.inl rfl))

theorem cancelCheck : Changes s (cancelCheck s) := by
  unfold Machine.cancelCheck
  split
  · exact (stopCheckTimer s).trans (Steady.handleUnchecked _).changes
  · exact .refl

theorem cancelCheck_lotOpen : (Machine.cancelCheck s).lotOpen = s.lotOpen := by
  unfold Machine.cancelCheck
  split
  · exact (Steady.handleUnchecked _).lot
  · rfl

theorem moveUp_lotOpen : (moveUp s).lotOpen = s.lotOpen := by
  unfold moveUp retire
  dsimp only
  (repeat' split) <;> rfl

theorem compareHome_lotOpen (home : Bool) : (compareHome home s).lotOpen = s.lotOpen := by
  unfold Machine.compareHome
  split
  · rfl
  · exact ((Steady.releases _ _).trans (Steady.suspected _)).lot.trans (raiseFault_lotOpen ..)

theorem compareHome (home : Bool) : Changes s (compareHome home s) := by
  unfold Machine.compareHome homeMismatch
  split
  · exact .refl
  · refine .trans (Steady.raiseFault s .homeMismatch s.faultPocket none).changes (.head .home ?_)
    exact ((Steady.releases _ _).trans (Steady.suspected _)).changes

theorem forwardParts (home : Bool) (lot : s.lotOpen = true) : Changes s (forwardParts home s) := by
  have up : Changes (Machine.cancelCheck s) (moveUp (Machine.cancelCheck s)) := .single (.up (by rwa [cancelCheck_lotOpen]))
  have compared := ((cancelCheck s).trans up).trans (compareHome _ home)
  have handed (t : State) : Steady t (Machine.arrivals (Machine.passes (Machine.deadlines t))) :=
    ((Steady.deadlines t).trans (Steady.passes _)).trans (Steady.arrivals _)
  refine .trans (compared.trans (handed _).changes) (.single (.timer (.inr ?_)))
  rw [(handed _).lot, compareHome_lotOpen, moveUp_lotOpen, cancelCheck_lotOpen, lot]

theorem onForwardIndex (home : Bool) (lot : s.lotOpen = true) : Changes s (onForwardIndex home s) := by
  have tested (t : State) : Changes t (Machine.advanceClearance (Machine.countIndex 1 t)) :=
    (Steady.countIndex t 1).changes.trans (advanceClearance _)
  unfold Machine.onForwardIndex countForward
  refine .trans ((forwardParts s home lot).trans ?_) (finishLine _)
  dsimp only
  split
  · exact (tested _).trans (Steady.raiseFault _ _ _ _).changes
  · exact tested _

theorem reverseParts (lot : s.lotOpen = true) : Changes s (reverseParts s) := by
  have moved (t : State) (open_ : t.lotOpen = true) (u : State)
      (left : u = setRing t.tracker.ring.tail t) (underflow : Bool) :
      Changes t (raiseGap underflow (endSlots (moveLoadPocket (-1) (popToZ u)))) := by
    subst left
    refine .head (.down open_) (.trans (Steady.endSlots _).changes ?_)
    unfold raiseGap
    split
    · exact (Steady.raiseNotice _ _ _).changes
    · exact .refl
  have open_ : (Machine.cancelCheck s).lotOpen = true := by rwa [cancelCheck_lotOpen]
  unfold Machine.reverseParts
  dsimp only
  refine .trans (cancelCheck s) ?_
  split
  · next r rest ring =>
    have bottom := Steady.discardBottom (Machine.cancelCheck s) r
    refine bottom.changes.trans (moved _ (bottom.lot.trans open_) _ ?_ _)
    rw [discardBottom_tracker, ring]
    rfl
  · next ring =>
    have bare : (Machine.cancelCheck s).tracker.ring.tail = (Machine.cancelCheck s).tracker.ring := by rw [ring]; rfl
    exact moved _ open_ _ (by rw [bare]; rfl) _

theorem onReverseIndex (lot : s.lotOpen = true) : Changes s (onReverseIndex s) :=
  ((reverseParts s lot).trans (Steady.countIndex _ _).changes).trans (finishEvent _)

theorem onCheckSample (check : Bool) : Changes s (onCheckSample check s) := by
  unfold Machine.onCheckSample
  split
  · exact (((advanceTo s _).trans (stopCheckTimer _)).trans (Steady.takeSample _ check).changes).trans (finishEvent _)
  · exact .refl

theorem onJamRise : Changes s (onJamRise s) :=
  ((Steady.raiseNotice s _ _).trans (Steady.raiseFault _ _ _ _)).changes.trans (finishLine _)

/-! ### The outlets -/

theorem onFireDelayExpiry (n : Fin 16) : Changes s (onFireDelayExpiry n s) := by
  unfold Machine.onFireDelayExpiry
  split
  · split
    · exact ((advanceTo s _).trans (Steady.fireTests _ n _).changes).trans (finishEvent _)
    · exact .refl
  · exact .refl
  · exact .refl

theorem onPulseEnd (n : Fin 16) : Changes s (onPulseEnd n s) := by
  unfold Machine.onPulseEnd
  split
  · exact ((advanceTo s _).trans ((Steady.quietDrive _ n).trans (Steady.retestDue _ n)).changes).trans (finishEvent _)
  · exact .refl
  · exact .refl

theorem onAck (n : Fin 16) : Changes s (onAck n s) := by
  unfold Machine.onAck
  split
  · exact .refl
  · split
    · next drive => exact ((Steady.answerStrobe s drive).trans (Steady.retestDue _ n)).changes.trans (finishEvent _)
    · exact .refl
    · exact .refl

theorem onAckLimitExpiry (n : Fin 16) : Changes s (onAckLimitExpiry n s) := by
  have faulted (claim : Option RecordName) (t : State) : Steady t (retestDue n (faultOutlet n (strandClaim claim
      (modOutlet n (fun o => { o with drive := .quiet }) t)))) :=
    (((Steady.quietDrive t n).trans (Steady.strandClaim _ claim)).trans (Steady.faultOutlet _ n)).trans
      (Steady.retestDue _ n)
  unfold Machine.onAckLimitExpiry
  split
  · exact ((advanceTo s _).trans (faulted _ _).changes).trans (finishEvent _)
  · exact .refl
  · exact .refl

theorem onDrop (n : Fin 16) : Changes s (onDrop n s) := by
  unfold Machine.onDrop
  split
  · exact .refl
  · split
    · exact (Steady.takeDrop s n _).changes.trans (finishEvent _)
    · exact .refl

theorem onFlightMaxMiss (n : Fin 16) : Changes s (onFlightMaxMiss n s) := by
  unfold Machine.onFlightMaxMiss
  split
  · next queue =>
    exact ((advanceTo s _).trans (Steady.missHead (Machine.advanceTo _ s) queue).changes).trans (finishEvent _)
  · exact .refl

/-! ### Requests -/

theorem reply (f : InFrame) (result : ResultCode) (bytes : List Byte) (room : s.ltx.outbound.length < Config.outboundLimit) :
    Changes s (reply f result bytes s) := enqueue s _ _ room

theorem serveMeas (f : InFrame) : Changes s (serveMeas f s) := (Steady.takeMeas s f).changes.trans (advanceClearance _)

theorem drawUnstated : Changes s (drawUnstated s) := line (drawUnstated_same s) rfl rfl

section

variable (f : InFrame) (room : s.ltx.outbound.length < Config.outboundLimit)

include room

theorem serveStatusQuery : Changes s (serveStatusQuery f s) := by
  unfold Machine.serveStatusQuery
  split
  · exact reply s _ _ _ room
  · exact (reply s _ _ _ room).trans (drawUnstated _)

theorem servePocketQuery : Changes s (servePocketQuery f s) := by
  unfold Machine.servePocketQuery badField
  (repeat' split) <;> exact reply s _ _ _ room

theorem serveOutletQuery : Changes s (serveOutletQuery f s) := by
  unfold Machine.serveOutletQuery
  split
  · exact reply s _ _ _ room
  split
  · exact reply s _ _ _ room
  · exact (reply s _ _ _ room).trans (drawUnstated _)

theorem serveTableWrite : Changes s (serveTableWrite f s) := by
  unfold Machine.serveTableWrite badField storeEntry
  split
  · split <;> exact reply s _ _ _ room
  split
  · exact reply s _ _ _ room
  split
  · exact reply s _ _ _ room
  split
  · exact reply s _ _ _ room
  · refine .trans ?_ (reply _ _ _ _ ?_)
    · exact line (setStaging_same s _ _) rfl rfl
    · exact room

theorem serveTableRead : Changes s (serveTableRead f s) := by
  unfold Machine.serveTableRead badField
  (repeat' split) <;> exact reply s _ _ _ room

theorem serveTableDiscard : Changes s (serveTableDiscard f s) := by
  unfold Machine.serveTableDiscard
  split
  · exact reply s _ _ _ room
  · exact (line (discardStaging_same s) rfl rfl).trans (reply _ _ _ _ room)

theorem serveTableCommit : Changes s (serveTableCommit f s) := by
  unfold Machine.serveTableCommit commit
  split
  · exact reply s _ _ _ room
  split
  · exact reply s _ _ _ room
  · next lot =>
    split
    · exact (line (discardStaging_same s) (by simp) (by simp)).trans (reply _ _ _ _ (by simpa using room))
    split
    · exact reply s _ _ _ room
    · next valid => exact .head (.activates (by simpa using lot) valid) (reply _ _ _ _ (by simpa using room))

theorem serveLotStart : Changes s (serveLotStart f s) := by
  unfold Machine.serveLotStart badField
  split
  · exact reply s _ _ _ room
  split
  · exact reply s _ _ _ room
  · next ready =>
    split
    · exact reply s _ _ _ room
    · next pocket =>
      split
      · exact (reply s _ _ _ room).trans (line (drawUnstated_same _) (by simp) (by simp))
      · exact .head (.opens (not_not.mp ready) (not_le.mp pocket)) (reply _ _ _ _ (by simpa using room))

theorem serveLotEnd : Changes s (serveLotEnd f s) := by
  unfold Machine.serveLotEnd
  split
  · exact reply s _ _ _ room
  split
  · exact reply s _ _ _ room
  · next taken =>
    have lot : s.lotOpen = true := by
      rw [Bool.not_eq_false, State.lotEndTaken] at taken
      rw [State.lotOpen]
      split at taken <;> simp_all
    have begun (stage : Stage) (kind : RunKind) := Steady.beginClearance s stage kind lot
    split
    · refine ((begun _ _).trans (Steady.abandonRunOut _)).changes.trans ((reply _ _ _ _ ?_).trans (advanceClearance _))
      rw [abandonRunOut_ltx]
      exact lt_of_le_of_lt (LineTransmitter.offerAll_length ..) (max_lt room (by decide))
    · refine (begun _ _).changes.trans ((reply _ _ _ _ ?_).trans (advanceClearance _))
      exact room

theorem serveClearFault : Changes s (serveClearFault f s) := by
  unfold Machine.serveClearFault
  split
  · exact reply s _ _ _ room
  split
  · exact reply s _ _ _ room
  · next halted =>
    split
    · exact (reply s _ _ _ room).trans (drawUnstated _)
    · refine (Steady.leaveHalted s (not_not.mp halted)).changes.trans
        ((reply _ _ _ _ ?_).trans ((drawUnstated _).trans (summaryStep _)))
      exact room

theorem serveOutletReset : Changes s (serveOutletReset f s) := by
  unfold Machine.serveOutletReset
  split
  · exact reply s _ _ _ room
  split
  · exact reply s _ _ _ room
  dsimp only
  split
  · exact reply s _ _ _ room
  · exact (Steady.emptyBin s _).changes.trans (reply _ _ _ _ room)

theorem serveNoticeAck : Changes s (serveNoticeAck f s) := by
  unfold Machine.serveNoticeAck badField
  repeat' split
  case isFalse.isFalse =>
    refine .trans (line (s := s) (t := ackNotices _ s) ⟨rfl, rfl, rfl, rfl⟩ rfl rfl) (reply _ _ _ _ ?_)
    exact room
  all_goals exact reply s _ _ _ room

theorem serveNoticeMask : Changes s (serveNoticeMask f s) := by
  unfold Machine.serveNoticeMask badField
  repeat' split
  case isFalse.isFalse =>
    refine .trans (line (s := s) (t := maskNotices _ s) ⟨rfl, rfl, rfl, rfl⟩ rfl rfl) (reply _ _ _ _ ?_)
    exact room
  all_goals exact reply s _ _ _ room

theorem serveNodeAssign : Changes s (serveNodeAssign f s) := by
  have assigned (a : Fin 4) : Steady s { s with lrx := { s.lrx with nodeAddress := some a } } :=
    .of_line ⟨rfl, rfl, rfl, rfl⟩ (by simp) (by simp) (by simp)
  unfold Machine.serveNodeAssign badField
  repeat' split
  case h_2.isFalse => exact (assigned _).changes.trans (reply _ _ _ _ room)
  all_goals exact reply s _ _ _ room

end

/-- R130, R131: the bookings of an abort and the close leave places for its reply and its summary. -/
theorem serveLotAbort (f : InFrame) (room : s.ltx.outbound.length ≤ 30) : Changes s (serveLotAbort f s) := by
  have few : s.ltx.outbound.length < Config.outboundLimit := lt_of_le_of_lt room (by decide)
  unfold Machine.serveLotAbort
  split
  · exact reply s _ _ _ few
  split
  · exact reply s _ _ _ few
  · next lot =>
    have sent : (abortClose (abortBookings s)).ltx.outbound.length ≤ 30 := by
      rw [abort_ltx]
      exact (LineTransmitter.offerAll_length ..).trans (max_le room (by decide))
    have closed : Closes s (abortClose (abortBookings s)) := {
      lot := by simpa using lot
      tracker := by rw [abort_eq]
      engine := by rw [abort_eq]
      active := by rw [abort_eq, bookAll_eq]
      later := by rw [abort_eq]; exact Nat.zero_le _
      inbound := by rw [abort_eq, bookAll_eq]
      outbound := sent.trans (le_max_of_le_right (by decide))
      urgent := by rw [abort_eq, bookAll_eq]
      queues := fun n hn => by
        rw [abort_outlet]
        exact hn.quiet rfl (Nat.zero_le _) }
    refine .head (.closes closed) ((reply _ _ _ _ ?_).trans (enqueue _ _ _ ?_))
    · exact lt_of_le_of_lt sent (by decide)
    · simp only [Machine.reply, enqueue_outbound, List.length_append, List.length_singleton]
      exact lt_of_le_of_lt (Nat.succ_le_succ sent) (by decide)

/-- What the Dispatcher does with a frame by its KIND, with the places that R169 asks for. -/
theorem effectOf (kind : Option RequestKind) (f : InFrame)
    (room : kind ≠ some .meas → s.ltx.outbound.length < Config.outboundLimit)
    (abort : kind = some .lotAbort → s.ltx.outbound.length ≤ 30) : Changes s (effectOf kind f s) := by
  match kind with
  | some .meas => exact serveMeas s f
  | some .statusQuery => exact serveStatusQuery s f (room nofun)
  | some .pocketQuery => exact servePocketQuery s f (room nofun)
  | some .outletQuery => exact serveOutletQuery s f (room nofun)
  | some .tableWrite => exact serveTableWrite s f (room nofun)
  | some .tableRead => exact serveTableRead s f (room nofun)
  | some .tableDiscard => exact serveTableDiscard s f (room nofun)
  | some .tableCommit => exact serveTableCommit s f (room nofun)
  | some .lotStart => exact serveLotStart s f (room nofun)
  | some .lotEnd => exact serveLotEnd s f (room nofun)
  | some .lotAbort => exact serveLotAbort s f (abort rfl)
  | some .outletReset => exact serveOutletReset s f (room nofun)
  | some .clearFault => exact serveClearFault s f (room nofun)
  | some .noticeAck => exact serveNoticeAck s f (room nofun)
  | some .noticeMask => exact serveNoticeMask s f (room nofun)
  | some .nodeAssign => exact serveNodeAssign s f (room nofun)
  | none => exact reply s f .unknownKind [] (room nofun)

/-- R169: a head frame whose condition is met leaves its queue and takes its effect. -/
theorem serveHead {f : InFrame} {rest : List InFrame} (head : s.lrx.inbound = f :: rest) (served : headServed f s = true) :
    Changes s (serveHead (Machine.effectOf (RequestKind.ofByte f.kind)) f rest s) := by
  have taken : Steady s (setInbound rest s) :=
    .of_line (setInbound_same s rest) (by simp [head]) (le_max_left ..) (le_max_left ..)
  refine taken.changes.trans (effectOf _ _ f (fun other => ?_) fun abort => ?_)
  · obtain meas | ⟨-, room⟩ := (headServed_iff f s).mp served
    · exact absurd (RequestKind.ofByte_eq_some_iff.mpr meas) other
    · refine lt_of_le_of_lt room ?_
      split <;> decide
  · have kind := RequestKind.ofByte_eq_some_iff.mp abort
    obtain meas | ⟨-, room⟩ := (headServed_iff f s).mp served
    · exact absurd (meas.symm.trans kind) (by decide)
    · rwa [if_pos kind] at room

theorem serve (kind : Option RequestKind) : Changes s (serve kind (Machine.effectOf kind) s) := by
  unfold Machine.serve
  split
  · next head =>
    split
    · next served =>
      obtain ⟨rfl, served⟩ := served
      exact (serveHead s head served).trans (finishLine _)
    · exact .refl
  · exact .refl

theorem serveWaiting (waited : Bool) : Changes s (serveWaiting waited s) := by
  unfold Machine.serveWaiting
  split
  · next head =>
    split
    · next served => exact serveHead s head served.2
    · exact .refl
  · exact .refl

/-! ### The arbiter and the producers -/

theorem admitUrgent : Changes s (admitUrgent s) := by
  refine (Steady.of_line (admitUrgent_same s) ?_ ?_ ?_).changes
  · exact le_max_left ..
  · simp only [Machine.admitUrgent, List.length_append, List.length_take]
    omega
  · simp only [Machine.admitUrgent, List.length_drop]
    omega

theorem onTransmissionEnd : Changes s (onTransmissionEnd s) := by
  have idle (ends : Nat) : Changes s (quietTxd ends (Machine.advanceTo (ends / Config.ticksPerUs) s)) :=
    (Steady.of_line ((advanceTo_same s _).trans (quietTxd_same _ _)) (by simp) (by simp) (by simp)).changes
  have freed (t : State) : Changes t (freePlace t) :=
    (Steady.of_line (freePlace_same t) (by simp) (by simp [freePlace]) (by simp)).changes
  have given (waited : Bool) (t : State) : Changes t (arbitrate waited t) :=
    (((admitUrgent t).trans (serveWaiting _ waited)).trans (summaryStep _)).trans (queueOwed _)
  unfold Machine.onTransmissionEnd
  split
  · exact (((idle _).trans (freed _)).trans (given _ _)).trans (startTransmission _)
  · exact (idle _).trans (startTransmission _)
  · exact .refl

theorem onUrgentReply : Changes s (onUrgentReply s) := by
  unfold Machine.onUrgentReply
  split
  · next urgent =>
    split
    · next room =>
      refine .trans ?_ (finishLine _)
      refine Steady.changes (.of_line ⟨rfl, rfl, rfl, rfl⟩ ?_ ?_ ?_)
      · exact le_max_left ..
      · simp only [List.length_append, List.length_singleton]
        omega
      · simp [urgent]
    · exact .refl
  · exact .refl

theorem onSummaryStage : Changes s (onSummaryStage s) := by
  unfold Machine.onSummaryStage
  split
  · exact (summaryStep s).trans (finishLine _)
  · exact .refl

theorem onNotice : Changes s (onNotice s) := by
  unfold Machine.onNotice
  split
  · split
    · refine .trans ?_ (startTransmission _)
      exact Steady.changes (.of_line ⟨rfl, rfl, rfl, rfl⟩ (le_max_left ..) (queueNotice_length (s.notices, s.ltx) _)
        (le_max_left ..))
    · exact .refl
  · exact .refl

/-! ### The line -/

theorem takeHalt (tag : Byte) : Changes s (takeHalt tag s) := by
  have offered (result : ResultCode) (t : State) : Changes t (offerHaltReply tag result t) := by
    refine (Steady.of_line (offerHaltReply_same t tag result) ?_ ?_ ?_).changes <;> unfold offerHaltReply <;>
      (repeat' split) <;> simp <;> omega
  unfold Machine.takeHalt
  split
  · exact (Steady.raiseFault s _ _ _).changes.trans (offered _ _)
  · exact offered _ s

theorem coreReset : Changes s (coreReset s) := .single .coreReset

theorem rejectFrame (trouble : LinkTrouble) : Changes s (rejectFrame trouble s) :=
  (Steady.of_line (rejectFrame_same s trouble) (le_max_left ..) (le_max_left ..) (le_max_left ..)).changes

theorem appendInbound (f : InFrame) : Changes s (appendInbound f s) := by
  unfold Machine.appendInbound
  split
  · next room =>
    refine (Steady.of_line (setInbound_same s _) ?_ (le_max_left ..) (le_max_left ..)).changes
    simp only [setInbound_inbound, List.length_append, List.length_singleton]
    omega
  · exact Steady.changes (.of_line ⟨rfl, rfl, rfl, rfl⟩ (le_max_left ..) (le_max_left ..) (le_max_left ..))

theorem acceptKept (f : InFrame) (held : List Byte) : Changes s (acceptKept f held s).1 := by
  unfold Machine.acceptKept
  split
  · split
    · exact rejectFrame s .length
    · split
      · exact takeHalt s _
      · exact coreReset s
  · split
    · exact (Steady.discard s _).changes
    · exact appendInbound s f

theorem setAssembler (a : Assembler) : Changes s (setAssembler a s) :=
  (Steady.of_line (setAssembler_same s a) (le_max_left ..) (le_max_left ..) (le_max_left ..)).changes

theorem takeChar (b : Byte) : Changes s (takeChar b s).1 := by
  unfold Machine.takeChar
  split
  · split
    · exact setAssembler s _
    · exact .refl
  unfold extendFrame completeFrame
  split
  · exact rejectFrame s .length
  split
  · split
    · exact rejectFrame s .crc
    split
    · exact (setAssembler s .hunt).trans (acceptKept _ _ _)
    · exact setAssembler s .hunt
  · exact setAssembler s _

theorem search (bytes : List Byte) : Changes s (search bytes s) :=
  takeChars_keeps (Q := Changes s) (fun b t h => h.trans (takeChar t b)) _ bytes .refl

theorem finishReception : Changes s (finishReception s) :=
  .trans (Steady.of_line (timeGap_same s) (le_max_left ..) (le_max_left ..) (le_max_left ..)).changes (finishLine _)

theorem markChar : Changes s (markChar s) :=
  (Steady.of_line (markChar_same s) (le_max_left ..) (le_max_left ..) (le_max_left ..)).changes

theorem onChar (b : Byte) : Changes s (onChar b s) := ((markChar s).trans (search _ [b])).trans (finishReception _)

theorem rejectAndSearch (trouble : LinkTrouble) : Changes s (rejectAndSearch trouble s) := by
  unfold Machine.rejectAndSearch
  split
  · exact .refl
  · exact (rejectFrame s trouble).trans (search _ _)

theorem onGapTimer : Changes s (onGapTimer s) := by
  unfold Machine.onGapTimer
  split
  · exact ((advanceTo s _).trans (rejectAndSearch _ .gap)).trans (finishReception _)
  · exact .refl

theorem charEndsAt (time : Nat) : Changes s (charEndsAt time s) := by
  have expire (fuel : Nat) (t : State) : Changes t (expireGaps time fuel t) := by
    induction fuel generalizing t with
    | zero => exact .refl
    | succ fuel ih =>
      unfold expireGaps
      split
      · exact (onGapTimer t).trans (ih _)
      · exact .refl
  exact (expire _ s).trans (advanceTo _ time)

theorem onFrameReject (trouble : LineTrouble) : Changes s (onFrameReject trouble s) := by
  cases trouble with
  | length len => exact onChar s len
  | framing => exact ((markChar s).trans (rejectAndSearch _ .framing)).trans (finishReception _)
  | lineBreak =>
    refine ((markChar s).trans ?_).trans (finishReception _)
    unfold rejectAndDrop
    split
    · exact .refl
    · exact rejectFrame _ _

/-! ### Every step -/

theorem beginHold (cause : ResetCause) : Changes s (beginHold cause s) := by
  unfold Machine.beginHold
  split
  · exact .refl
  · exact .single (.fullReset ..)

theorem announceStart (cause : ResetCause) (empty : s.ltx.outbound = []) : Changes s (announceStart cause s) :=
  (Steady.of_line (announceStart_same s cause) (by simp) (by simp [Machine.announceStart, empty, Config.outboundLimit]) (by simp)).changes

theorem endHold (rate1 rate0 : Bool) (addr1 addr0 : StrapLevel) : Changes s (endHold rate1 rate0 addr1 addr0 s) := by
  unfold Machine.endHold
  split
  · exact .head (.fullReset ..) (announceStart _ _ rfl)
  · exact .refl

/-- Every command is a chain of changes. -/
theorem exec (c : Instr) {t : State} (run : exec c s = .next t) : Changes s t := by
  have row (kind : Option RequestKind) : Changes s (Machine.whenRunning (Machine.serve kind (Machine.effectOf kind)) s) :=
    whenRunning s fun t => serve t kind
  have char (b : Byte) (time : Nat) :
      Changes s (Machine.whenRunning (fun s => Machine.onChar b (Machine.charEndsAt time s)) s) :=
    whenRunning s fun t => (charEndsAt t time).trans (onChar _ b)
  have jam (level : Bool) : Changes s { s with jam := level } := line ⟨rfl, rfl, rfl, rfl⟩ rfl rfl
  cases c <;> cases run
  case forwardIndex time home => exact edge s (onForwardIndex · home) time
  case reverseIndex time => exact edge s onReverseIndex time
  case checkSample check => exact whenRunning s (inLot · fun t _ => onCheckSample t check)
  case fireDelayExpiry n => exact whenRunning s (onFireDelayExpiry · n)
  case pulseEnd n => exact whenRunning s (onPulseEnd · n)
  case ack time n => exact edge s (fun t _ => onAck t n) time
  case ackLimitExpiry n => exact whenRunning s (onAckLimitExpiry · n)
  case drop time n => exact edge s (fun t _ => onDrop t n) time
  case flightMaxMiss n => exact whenRunning s (inLot · fun t _ => onFlightMaxMiss t n)
  case jamRise time => exact (jam true).trans (whenRunning _ fun t => (advanceTo t time).trans (onJamRise _))
  case jamFall time => exact (jam false).trans (whenRunning _ (advanceTo · time))
  case powerOn => exact beginHold s _
  case supplyLow => exact beginHold s _
  case external => exact beginHold s _
  case resetHoldEnd rate1 rate0 addr1 addr0 => exact endHold s rate1 rate0 addr1 addr0
  case frameReject time trouble => exact whenRunning s fun t => (charEndsAt t time).trans (onFrameReject _ trouble)
  case gapTimer => exact whenRunning s onGapTimer
  case frameComplete time b => exact char b time
  case characterReceived time b => exact char b time
  case halt tag => exact whenRunning s fun t => (takeHalt t tag).trans (finishLine _)
  case coreReset => exact whenRunning s coreReset
  case meas => exact row (some .meas)
  case statusQuery => exact row (some .statusQuery)
  case pocketQuery => exact row (some .pocketQuery)
  case outletQuery => exact row (some .outletQuery)
  case tableWrite => exact row (some .tableWrite)
  case tableRead => exact row (some .tableRead)
  case tableDiscard => exact row (some .tableDiscard)
  case tableCommit => exact row (some .tableCommit)
  case lotStart => exact row (some .lotStart)
  case lotEnd => exact row (some .lotEnd)
  case lotAbort => exact row (some .lotAbort)
  case outletReset => exact row (some .outletReset)
  case clearFault => exact row (some .clearFault)
  case noticeAck => exact row (some .noticeAck)
  case noticeMask => exact row (some .noticeMask)
  case nodeAssign => exact row (some .nodeAssign)
  case unknownKind => exact row none
  case transmissionEnd => exact whenRunning s onTransmissionEnd
  case urgentReply => exact whenRunning s onUrgentReply
  case summaryStage => exact whenRunning s onSummaryStage
  case notice => exact whenRunning s onNotice

/-- Every step is a chain of changes. -/
theorem step {t : State} (run : step s = .next t) : Changes s t := by
  unfold Machine.step at run
  split at run
  · next c rest _ =>
    have taken : Changes s { s with pending := rest } := line ⟨rfl, rfl, rfl, rfl⟩ rfl rfl
    exact taken.trans (exec _ c run)
  · cases run
    refine (Steady.of_line (idle_same s) ?_ ?_ ?_).changes <;> unfold idle <;> split <;> exact le_max_left ..

end Changes

/-! ### The ring that moves up -/

/-- R8, R11: a RETAINED record retires as LOST, and any other as it is. -/
theorem retire_tracker (r : PocketRecord) (s : State) : (retire r s).tracker = { s.tracker with
    stack := ((if r.phase = .retained then r.settle .lost else r) :: s.tracker.stack).take Config.stackLimit } := by
  unfold retire push
  (repeat' split) <;> simp_all

/-- R12, R21: `load_pocket` moves mod P. -/
theorem moveLoadPocket_tracker (by_ : Int) (s : State) : (moveLoadPocket by_ s).tracker = { s.tracker with
    loadPocket := s.tracker.loadPocket.map fun lp : Nat => (((lp : Int) + by_) % (s.dial.pockets : Int)).toNat } := by
  cases loadPocket : s.tracker.loadPocket <;> simp [moveLoadPocket, loadPocket]

theorem newRecord_tracker (phase : Phase) (s : State) : (newRecord phase s).tracker = { s.tracker with
    ring := PocketRecord.fresh s.tracker.issue (if s.tracker.issue.isSome then 0 else s.tracker.nextIdent) phase
      :: s.tracker.ring
    nextSeq := s.tracker.nextSeq.map fun q => min (q + 1) (Config.seqMax + 1)
    nextIdent := if s.tracker.issue.isSome then s.tracker.nextIdent else s.tracker.nextIdent + 1 } := rfl

/-- R5, R8, R10 to R12: the Tracker after a move, the record at Z having left the ring. -/
theorem moveUp_tracker {s : State} {r : PocketRecord} (at_z : s.tracker.ring[s.z]? = some r) :
    (moveUp s).tracker = { s.tracker with
      ring := PocketRecord.fresh s.tracker.issue (if s.tracker.issue.isSome then 0 else s.tracker.nextIdent)
          (if s.isClearing then .void else .open) :: s.tracker.ring.take s.z
      stack := ((if r.phase = .retained then r.settle .lost else r) :: s.tracker.stack).take Config.stackLimit
      loadPocket := s.tracker.loadPocket.map fun lp : Nat => (((lp : Int) + 1) % (s.dial.pockets : Int)).toNat
      nextSeq := s.tracker.nextSeq.map fun q => min (q + 1) (Config.seqMax + 1)
      nextIdent := if s.tracker.issue.isSome then s.tracker.nextIdent else s.tracker.nextIdent + 1 } := by
  have clearing : (retire r (setRing (s.tracker.ring.take s.z) s)).isClearing = s.isClearing := by
    unfold retire
    (repeat' split) <;> rfl
  have moved : moveUp s = moveLoadPocket 1 (newRecord (if s.isClearing then .void else .open)
      (retire r (setRing (s.tracker.ring.take s.z) s))) := by simp only [moveUp, at_z, clearing]
  rw [moved, moveLoadPocket_tracker, newRecord_tracker, retire_tracker, State.dial, newRecord_tables, retire_tables]
  rfl

/-! ### The opened lot -/

theorem openLot_sup (lotId loadPocket : Nat) (s : State) : (openLot lotId loadPocket s).sup =
    { s.sup with engine := .sorting, returnState := none, clearance := none, faults := .empty, lotId := some lotId,
                 present := 0, unaccounted := 0, recovered := 0, strays := 0 } := by
  simp [openLot]

theorem openLot_tracker (lotId loadPocket : Nat) (s : State) :
    (openLot lotId loadPocket s).tracker = s.tracker.lotStart s.z loadPocket := by
  have dial : (mapOutlets (fun _ o => { o with lotTotal := 0 }) s).z = s.z := State.z_congr (mapOutlets_tables ..)
  simp [openLot, dial]

theorem openLot_outlet (lotId loadPocket : Nat) (s : State) (n : Fin 16) :
    (openLot lotId loadPocket s).outlets[n] = { s.outlets[n] with lotTotal := 0 } := by
  simp [openLot]

/-! ### The queue law -/

namespace QueueLaw

variable {s t : State}

theorem steady (h : QueueLaw s) (change : Steady s t) : QueueLaw t where
  inbound := change.inbound.trans (max_le h.inbound le_rfl)
  outbound := change.outbound.trans (max_le h.outbound le_rfl)
  urgent := change.urgent.trans (max_le h.urgent le_rfl)
  stack := change.stack.trans_le h.stack
  later := change.later.trans (max_le h.later le_rfl)
  confirmations n := change.queues n (h.confirmations n)

/-- A change of the Tracker alone that leaves no more than 8 records in the stack. -/
theorem of_tracker (h : QueueLaw s) (lrx : t.lrx = s.lrx) (ltx : t.ltx = s.ltx) (sup : t.sup = s.sup)
    (outlets : t.outlets = s.outlets) (stack : t.tracker.stack.length ≤ Config.stackLimit) : QueueLaw t where
  inbound := lrx ▸ h.inbound
  outbound := ltx ▸ h.outbound
  urgent := lrx ▸ h.urgent
  stack := stack
  later := sup ▸ h.later
  confirmations n := outlets ▸ h.confirmations n

/-- R8: the retired stack keeps the 8 youngest records. -/
theorem retire (r : PocketRecord) (h : QueueLaw s) : QueueLaw (retire r s) := by
  have pushed (r : PocketRecord) {u : State} (hu : QueueLaw u) : QueueLaw (push r u) :=
    hu.of_tracker rfl rfl rfl rfl (List.length_take_le ..)
  unfold Machine.retire
  split
  · split
    · exact pushed _ (h.steady (Steady.bookRecord s r _))
    · exact pushed _ h
  · exact pushed _ h

theorem moveUp (h : QueueLaw s) : QueueLaw (moveUp s) := by
  have left : QueueLaw (setRing (s.tracker.ring.take s.z) s) := h.of_tracker rfl rfl rfl rfl h.stack
  have made (phase : Phase) {u : State} (hu : QueueLaw u) : QueueLaw (moveLoadPocket 1 (newRecord phase u)) :=
    hu.of_tracker rfl rfl rfl rfl hu.stack
  unfold Machine.moveUp
  dsimp only
  split
  · exact made _ (left.retire _)
  · exact made _ left

theorem moveDown (h : QueueLaw s) : QueueLaw (moveDown s) := by
  have popped : (popToZ (setRing s.tracker.ring.tail s)).tracker.stack.length ≤ s.tracker.stack.length := by
    unfold popToZ
    split
    · next rest stack =>
      calc rest.length ≤ (setRing s.tracker.ring.tail s).tracker.stack.length := by rw [stack]; exact Nat.le_succ _
        _ = s.tracker.stack.length := rfl
    · exact le_rfl
  exact h.of_tracker (by simp [Machine.moveDown]) (by simp [Machine.moveDown]) (by simp [Machine.moveDown])
    (by simp [Machine.moveDown]) (popped.trans h.stack)

theorem closes (h : QueueLaw s) (change : Closes s t) : QueueLaw t where
  inbound := change.inbound ▸ h.inbound
  outbound := change.outbound.trans (max_le h.outbound le_rfl)
  urgent := change.urgent ▸ h.urgent
  stack := by simp [change.tracker]
  later := change.later.trans h.later
  confirmations n := change.queues n (h.confirmations n)

theorem of_empty (inbound : s.lrx.inbound = []) (outbound : s.ltx.outbound.length ≤ 1) (urgent : s.lrx.urgent = [])
    (stack : s.tracker.stack = []) (later : s.sup.faults.later = [])
    (outlets : ∀ n : Fin 16, s.outlets[n].queue = [] ∧ s.outlets[n].drive = .quiet) : QueueLaw s where
  inbound := by simp [inbound]
  outbound := outbound.trans (by decide)
  urgent := by simp [urgent]
  stack := by simp [stack]
  later := by simp [later]
  confirmations n := by
    obtain ⟨queue, drive⟩ := outlets n
    rw [Outlet.queueBound, drive, queue]
    exact Nat.zero_le _

theorem openLot (lotId loadPocket : Nat) (h : QueueLaw s) : QueueLaw (openLot lotId loadPocket s) where
  inbound := h.inbound
  outbound := h.outbound
  urgent := h.urgent
  stack := Nat.zero_le _
  later := Nat.zero_le _
  confirmations n := by
    rw [openLot_outlet]
    exact h.confirmations n

theorem activate (h : QueueLaw s) : QueueLaw (activate s) where
  inbound := h.inbound
  outbound := h.outbound
  urgent := h.urgent
  stack := h.stack
  later := h.later
  confirmations n := by
    have kept (old new : Option OutletEntry) (o : Outlet) : (o.recommit old new).queueBound ↔ o.queueBound := by
      unfold Outlet.recommit
      split <;> rfl
    rw [activate_outlet, kept]
    exact h.confirmations n

theorem coreReset (s : State) : QueueLaw (coreReset s) := by
  refine of_empty ?_ ?_ ?_ ?_ ?_ fun n => ?_
  · simp [Machine.coreReset, LineReceiver.afterReset]
  · simp [Machine.coreReset, announceStart]
  · simp [Machine.coreReset, LineReceiver.afterReset]
  · simp [Machine.coreReset, Tracker.afterReset]
  · simp [Machine.coreReset, Supervisor.afterReset, FaultRecord.empty]
  · cases entry : s.outletEntry n <;> simp [Machine.coreReset, Outlet.afterCoreReset, entry, Outlet.afterReset]

theorem fullReset (cause : ResetCause) (held : Bool) (rate : BitRate) (address : Option (Fin 4)) (s : State) :
    QueueLaw (fullReset cause held rate address s) :=
  of_empty rfl (Nat.zero_le _) rfl rfl rfl fun n => by simp [Machine.fullReset, Outlet.afterReset]

theorem change (h : QueueLaw s) (change : Change s t) : QueueLaw t := by
  cases change with
  | steady change => exact h.steady change
  | up lot => exact h.moveUp
  | down lot => exact h.moveDown
  | home => exact h.of_tracker rfl rfl rfl rfl h.stack
  | timer => exact h.of_tracker rfl rfl rfl rfl h.stack
  | closes change => exact h.closes change
  | opens => exact h.openLot _ _
  | activates => exact h.activate
  | coreReset => exact coreReset s
  | fullReset cause held rate address => exact fullReset cause held rate address s

end QueueLaw

/-- Settles O3: no change of a step takes a queue past its limit. -/
theorem queueLawIsKept : Obligations.QueueLawIsKept := fun _ _ h run =>
  (Changes.step _ run).rec h fun _ change law => law.change change


/-! ### The geometry law -/

/-- R115, R120: an absent LINK record, which passes check 11, is activated with defaults that pass it too. -/
theorem TableSet.withLink_valid {t : TableSet} (valid : t.invalid = none) : t.withLink.invalid = none := by
  have ordered := holdOff_lt_holdOn valid
  have checked : t.checkLink = none := firstFailure_eq_none valid _ (by simp)
  have checked' : t.withLink.checkLink = none := by simp [checkLink, withLink, ordered]
  calc t.withLink.invalid = firstFailure 1 [t.checkDial, t.checkStations, t.checkContact, t.checkWindows, t.checkOffsets,
        t.checkSweep, t.checkOverflow, t.checkClasses, t.checkLot, t.checkFlights, t.withLink.checkLink] := rfl
    _ = t.invalid := by rw [checked', ← checked]; rfl
    _ = none := valid

namespace GeometryLaw

variable {s t : State}

theorem dial_congr (active : t.tables.active = s.tables.active) : t.dial = s.dial := by simp [State.dial, active]

theorem steady (h : GeometryLaw s) (change : Steady s t) : GeometryLaw t where
  active := by rw [change.active, change.configured]; exact h.active
  valid := by rw [change.active]; exact h.valid
  ring lot := by
    rw [change.ring, State.z, dial_congr change.active]
    exact h.ring (change.lot.symm.trans lot)
  loadPocket lot := by
    rw [change.loadPocket, dial_congr change.active]
    exact h.loadPocket (change.lot.symm.trans lot)
  noLot lot := by
    obtain ⟨ring, stack, timer⟩ := h.noLot (change.lot.symm.trans lot)
    refine ⟨?_, ?_, change.checkTimer.trans timer⟩
    · rw [← List.length_eq_zero_iff, change.ring, ring, List.length_nil]
    · rw [← List.length_eq_zero_iff, change.stack, stack, List.length_nil]

/-- A lot that stays open has a ring of Z+1 records and a load pocket below P again. -/
theorem of_lot (h : GeometryLaw s) (lot : s.lotOpen = true) (lot' : t.lotOpen = true) (tables : t.tables = s.tables)
    (ring : t.tracker.ring.length = s.z + 1)
    (loadPocket : ∃ p, t.tracker.loadPocket = some p ∧ p < s.dial.pockets) : GeometryLaw t := by
  have configured {u : State} (open_ : u.lotOpen = true) : u.sup.engine ≠ .unconfigured := fun engine => by
    simp [State.lotOpen, engine] at open_
  have dial := dial_congr (congrArg TableStore.active tables)
  constructor
  · rw [tables, h.active]
    simp [configured lot, configured lot']
  · rw [tables]
    exact h.valid
  · rw [State.z, dial]
    exact fun _ => ring
  · rw [dial]
    exact fun _ => loadPocket
  · simp [lot']

/-- Without a lot the Tracker is empty. -/
theorem of_noLot (active : s.tables.active.isNone ↔ s.sup.engine = .unconfigured)
    (valid : ∀ t, s.tables.active = some t → t.invalid = none ∧ t.link.isSome) (noLot : s.lotOpen = false)
    (ring : s.tracker.ring = []) (stack : s.tracker.stack = []) (timer : s.tracker.checkTimer = none) : GeometryLaw s where
  active := active
  valid := valid
  ring := by simp [noLot]
  loadPocket := by simp [noLot]
  noLot _ := ⟨ring, stack, timer⟩

theorem activate (noLot : s.lotOpen = false) (valid : s.tables.staged.invalid = none) (h : GeometryLaw s) :
    GeometryLaw (activate s) := by
  obtain ⟨ring, stack, timer⟩ := h.noLot noLot
  have ready := EngineState.afterCommit_of_noLot noLot
  refine of_noLot ?_ ?_ ?_ ?_ ?_ ?_
  · simp [activate_tables, activate_sup, ready]
  · simpa [activate_tables] using ⟨TableSet.withLink_valid valid, rfl⟩
  · simp [State.lotOpen, activate_sup, ready]
  · exact ring
  · exact stack
  · exact timer

/-- A load pocket that moves by one stays below P. -/
theorem moved (h : GeometryLaw s) (lot : s.lotOpen = true) (by_ : Int) :
    ∃ p, s.tracker.loadPocket.map (fun lp : Nat => (((lp : Int) + by_) % (s.dial.pockets : Int)).toNat) = some p
      ∧ p < s.dial.pockets := by
  obtain ⟨p, loadPocket, below⟩ := h.loadPocket lot
  refine ⟨_, by rw [loadPocket]; rfl, ?_⟩
  have positive : (0 : Int) < s.dial.pockets := by omega
  have := Int.emod_lt_of_pos ((p : Int) + by_) positive
  dsimp only
  omega

theorem moveUp (lot : s.lotOpen = true) (h : GeometryLaw s) : GeometryLaw (moveUp s) := by
  have length := h.ring lot
  obtain ⟨r, at_z⟩ : ∃ r, s.tracker.ring[s.z]? = some r := ⟨_, List.getElem?_eq_getElem (by omega)⟩
  refine h.of_lot lot ((Changes.moveUp_lotOpen s).trans lot) (moveUp_tables s) ?_ ?_ <;> rw [moveUp_tracker at_z]
  · simp [length]
  · exact h.moved lot 1

theorem moveDown (lot : s.lotOpen = true) (h : GeometryLaw s) : GeometryLaw (moveDown s) := by
  have length := h.ring lot
  have popped : (popToZ (setRing s.tracker.ring.tail s)).tracker.ring.length = s.z + 1
      ∧ (popToZ (setRing s.tracker.ring.tail s)).tracker.loadPocket = s.tracker.loadPocket := by
    unfold popToZ
    split <;> exact ⟨by simp [length], rfl⟩
  refine h.of_lot lot ?_ ?_ popped.1 ?_
  · rw [State.lotOpen_congr (s := s) (by simp [Machine.moveDown]), lot]
  · simp [Machine.moveDown]
  · have dial : (popToZ (setRing s.tracker.ring.tail s)).dial = s.dial := dial_congr (by simp)
    have stepped : (Machine.moveDown s).tracker.loadPocket =
        s.tracker.loadPocket.map fun lp : Nat => (((lp : Int) + -1) % (s.dial.pockets : Int)).toNat := by
      rw [← dial, ← popped.2]
      exact congrArg Tracker.loadPocket (moveLoadPocket_tracker ..)
    rw [stepped]
    exact h.moved lot (-1)

theorem closes (h : GeometryLaw s) (change : Closes s t) : GeometryLaw t := by
  have configured : s.sup.engine ≠ .unconfigured := fun engine => by
    simpa [State.lotOpen, engine] using change.lot
  refine of_noLot ?_ ?_ ?_ ?_ ?_ ?_
  · rw [change.active, h.active, change.engine]
    simp [configured]
  · rw [change.active]
    exact h.valid
  · simp [State.lotOpen, change.engine]
  all_goals rw [change.tracker]

theorem openLot {lotId loadPocket : Nat} (ready : s.sup.engine = .ready) (below : loadPocket < s.dial.pockets)
    (h : GeometryLaw s) : GeometryLaw (openLot lotId loadPocket s) := by
  have active := h.active
  have dial : (Machine.openLot lotId loadPocket s).dial = s.dial := dial_congr (by rw [openLot_tables])
  have lot : (Machine.openLot lotId loadPocket s).lotOpen = true := by simp [State.lotOpen, openLot_sup]
  rw [ready] at active
  refine ⟨?_, ?_, fun _ => ?_, fun _ => ?_, ?_⟩
  · rw [openLot_tables, active]
    simp [openLot_sup]
  · rw [openLot_tables]
    exact h.valid
  · rw [openLot_tracker, State.z, State.z, dial]
    exact (List.length_map _).trans List.length_range
  · rw [openLot_tracker, dial]
    exact ⟨loadPocket, rfl, below⟩
  · simp [lot]

theorem coreReset (h : GeometryLaw s) : GeometryLaw (coreReset s) := by
  have tables : (Machine.coreReset s).tables.active = s.tables.active := by simp [Machine.coreReset]
  have engine : (Machine.coreReset s).sup.engine = s.tables.engineAfterReset := by
    simp [Machine.coreReset, Supervisor.afterReset]
  have lot : (Machine.coreReset s).lotOpen = false := by
    rw [State.lotOpen, engine]
    cases active : s.tables.active <;> simp [TableStore.engineAfterReset, active]
  refine of_noLot ?_ ?_ lot ?_ ?_ ?_
  · rw [tables, engine]
    cases active : s.tables.active <;> simp [TableStore.engineAfterReset, active]
  · rw [tables]
    exact h.valid
  all_goals simp [Machine.coreReset, Tracker.afterReset]

theorem change (h : GeometryLaw s) (change : Change s t) : GeometryLaw t := by
  cases change with
  | steady change => exact h.steady change
  | up lot => exact h.moveUp lot
  | down lot => exact h.moveDown lot
  | home =>
    refine ⟨h.active, h.valid, h.ring, fun lot => ?_, h.noLot⟩
    obtain ⟨p, -, below⟩ := h.loadPocket lot
    exact ⟨0, rfl, Nat.zero_lt_of_lt below⟩
  | timer allowed =>
    refine ⟨h.active, h.valid, h.ring, h.loadPocket, fun noLot => ?_⟩
    obtain ⟨ring, stack, -⟩ := h.noLot noLot
    exact ⟨ring, stack, allowed.resolve_right (Bool.eq_false_iff.mp noLot)⟩
  | closes change => exact h.closes change
  | opens ready below => exact h.openLot ready below
  | activates noLot valid => exact h.activate noLot valid
  | coreReset => exact h.coreReset
  | fullReset cause held rate address => 
    refine of_noLot ?_ nofun rfl rfl rfl rfl
    simp [Machine.fullReset, TableStore.afterFullReset, Supervisor.afterReset]

end GeometryLaw

/-- Settles O5: every change of a step keeps the shape of the Tracker and the active set. -/
theorem geometryLawIsKept : Obligations.GeometryLawIsKept := fun _ _ h run =>
  (Changes.step _ run).rec h fun _ change law => law.change change

end Sys2Proof.Machine

/-! The state right after reset, the end of a full reset, CORE_RESET, the edges that are ignored and LOT_START (R3, R10, R20,
R27, R28, R53, R65, R77, R108, R128, R143 to R145, R184). -/

namespace Sys2Proof.Machine

/-! ### The laws of an empty block -/

/-- Without a record, an entry, a slot and a claim there is nothing for the names and phases to disagree about. -/
theorem RecordLaw.of_empty {s : State} (ring : s.tracker.ring = []) (stack : s.tracker.stack = [])
    (outlets : ∀ n : Fin 16, s.outlets[n].queue = [] ∧ s.outlets[n].reserved = 0 ∧ s.outlets[n].slot = .free
      ∧ s.outlets[n].drive.claim = none)
    (stage : s.stage ≠ some .summary) : RecordLaw s := by
  have records : s.tracker.records = [] := by simp [Tracker.records, ring, stack]
  have entries : s.entries = [] := by
    rw [State.entries, List.flatMap_eq_nil_iff]
    exact fun n _ => (outlets n).1
  have noSlot (n : Fin 16) (name : RecordName) : s.outlets[n].slot.name ≠ some name := by
    rw [(outlets n).2.2.1]
    nofun
  have noClaim (n : Fin 16) (name : RecordName) : s.outlets[n].drive.claim ≠ some name := by
    rw [(outlets n).2.2.2]
    nofun
  exact {
    records := by simp [records]
    entries := by simp [entries]
    issued := by simp [records]
    entryIssued := by simp [entries]
    entryRecord := by simp [entries]
    firingEntry := by simp [records]
    uncounted := by simp [records]
    counted := by simp [ring]
    slot := fun n name slot => absurd slot (noSlot n name)
    claim := fun n name claim => absurd claim (noClaim n name)
    apart := fun n name slot => absurd slot (noSlot n name)
    atCheck := by simp [ring]
    retired := by simp [stack]
    noLot := fun _ => outlets
    summary := fun summary => absurd summary stage }

/-- The outlets of the reset state are DISABLED and hold nothing (R53, R69). -/
theorem State.reset_outlet (n : Fin 16) : State.reset.outlets[n] = .afterReset := by simp [State.reset]

/-- Settles O10: the reset state holds no record, no frame but START, no entry and no count. -/
theorem lawsHoldAtReset : Obligations.LawsHoldAtReset := by
  have outlets (n : Fin 16) : State.reset.outlets[n].queue = [] ∧ State.reset.outlets[n].reserved = 0
      ∧ State.reset.outlets[n].slot = .free ∧ State.reset.outlets[n].drive.claim = none := by
    rw [State.reset_outlet]
    exact ⟨rfl, rfl, rfl, rfl⟩
  have account : Settled State.reset :=
    .of_zero rfl rfl rfl rfl fun n => by rw [State.reset_outlet]; exact ⟨rfl, rfl, rfl⟩
  refine ⟨?_, ?_, ?_, ?_, ?_, ?_, ?_⟩
  · exact .of_empty rfl (Nat.le_refl 1) rfl rfl rfl fun n => by rw [State.reset_outlet]; exact ⟨rfl, rfl⟩
  · exact .of_running nofun rfl rfl ⟨nofun, nofun⟩
  · exact .of_noLot ⟨fun _ => rfl, fun _ => rfl⟩ nofun rfl rfl rfl rfl
  · exact .of_zero rfl rfl rfl rfl rfl fun n => by
      rw [State.reset_outlet]
      exact ⟨Nat.zero_le _, Nat.zero_le _, Nat.zero_le _⟩
  · exact ⟨by decide, by decide⟩
  · exact .of_empty rfl rfl outlets nofun
  · exact ledger_zero_iff.mp account.toLedger

/-! ### START is announced (R145, R171, R184) -/

section

variable {s : State} {cause : ResetCause}

theorem announceStart_notices (cause : ResetCause) (s : State) : (announceStart cause s).notices = noticesAfterReset cause := by
  simp [announceStart]

theorem noticesAfterReset_get (cause : ResetCause) (i : Fin 11) : (noticesAfterReset cause)[i] =
    { pending := decide (i = 0), masked := false, owed := false, detail := if i = 0 then cause.code else 0 } := by
  by_cases start : i = 0
  · subst start
    rfl
  · have other : (0 : Nat) ≠ i := fun same => start (Fin.ext same.symm)
    simp [noticesAfterReset, start, other, NoticeCell.clear]

/-- Only START is pending and nothing is masked, so ATTN is active (R183, R184). -/
theorem lines_of_announced (notices : s.notices = noticesAfterReset cause) (running : s.held = false) :
    s.pendingWord = 1 ∧ s.maskWord = 0 ∧ s.attn = true := by
  refine ⟨?_, ?_, (State.attn_iff s).mpr ⟨running, 0, ?_⟩⟩
  · rw [State.pendingWord, notices]
    cases cause <;> rfl
  · rw [State.maskWord, notices]
    cases cause <;> rfl
  · simp only [notices, noticesAfterReset_get]
    exact ⟨rfl, trivial⟩

/-- START pending and queued, its transmission not yet begun. -/
def announced (cause : ResetCause) (s : State) : State :=
  { s with
    notices := noticesAfterReset cause
    ltx := { s.ltx with outbound := s.ltx.outbound ++ [noticeFrame .start cause.code] } }

theorem announceStart_eq (cause : ResetCause) (s : State) : announceStart cause s = startTransmission (announced cause s) := rfl

/-- With TXD idle START begins at once; ATTN is active as its FLAGS are stamped. -/
theorem announceStart_ltx_of_idle {since : Nat} (running : s.held = false) (empty : s.ltx.outbound = [])
    (flags : s.ltx.reject = false ∧ s.ltx.overrun = false ∧ s.ltx.lost = false) (idle : s.ltx.txd = .idle since) :
    (announceStart cause s).ltx =
      { outbound := [{ tag := 0, body := .notice .start cause.code, flags := some 0x08 }]
        txd := .sending (max (8 * s.now) since) (max (8 * s.now) since + 12 * s.rate.charTicks)
        reject := false, overrun := false, lost := false } := by
  obtain ⟨reject, overrun, lost⟩ := flags
  have attn : (announced cause s).attn = true := (lines_of_announced (s := announced cause s) rfl running).2.2
  have queue : (announced cause s).ltx.outbound = [noticeFrame .start cause.code] := by simp [announced, empty]
  rw [announceStart_eq, startTransmission_begins queue idle, attn]
  simp only [announced, reject, overrun, lost]
  rfl

/-- While TXD carries the end of a frame START waits. -/
theorem announceStart_ltx_of_busy (empty : s.ltx.outbound = [])
    (flags : s.ltx.reject = false ∧ s.ltx.overrun = false ∧ s.ltx.lost = false) (busy : ∀ since, s.ltx.txd ≠ .idle since) :
    (announceStart cause s).ltx =
      { outbound := [{ tag := 0, body := .notice .start cause.code, flags := none }], txd := s.ltx.txd
        reject := false, overrun := false, lost := false } := by
  obtain ⟨reject, overrun, lost⟩ := flags
  simp only [announceStart_eq, startTransmission, LineTransmitter.start, announced, empty, reject, overrun, lost]
  split
  · next idle _ => exact absurd idle (busy _)
  · rfl

end

/-- Settles O12: a full reset gives every block its reset state, and START begins on the idle TXD. -/
theorem resetHoldEndsInResetState : Obligations.ResetHoldEndsInResetState := by
  intro s rate1 rate0 addr1 addr0 held
  have released : endHold rate1 rate0 addr1 addr0 s = announceStart s.sup.resetCause
      (fullReset s.sup.resetCause false (.ofStraps rate1 rate0) (addressOfStraps addr1 addr0) s) := if_pos held
  have sent := announceStart_ltx_of_idle (cause := s.sup.resetCause)
    (s := fullReset s.sup.resetCause false (.ofStraps rate1 rate0) (addressOfStraps addr1 addr0) s) rfl rfl ⟨rfl, rfl, rfl⟩ rfl
  have notices := announceStart_notices s.sup.resetCause
    (fullReset s.sup.resetCause false (.ofStraps rate1 rate0) (addressOfStraps addr1 addr0) s)
  have lines := lines_of_announced notices (by simp [fullReset])
  refine ⟨_, congrArg Host.Outcome.next released, ?_⟩
  dsimp only
  rw [sent, notices]
  refine ⟨?_, ?_, ?_, ?_, ?_, ?_, ?_, ?_, ?_, ?_, ?_, ?_, ?_, ?_, ?_, ?_, rfl, rfl, rfl, rfl, lines.1, lines.2.1, lines.2.2,
    noticesAfterReset_get _⟩
  all_goals simp [fullReset, Supervisor.afterReset, Tracker.afterReset, Outlet.afterReset, TableStore.afterFullReset,
    Config.crcStart, LineReceiver.afterReset]

/-- R143, R171: every block after a CORE_RESET, START not yet announced. -/
def coreCleared (s : State) : State :=
  { s with
    tracker := { Tracker.afterReset with nextIdent := s.tracker.nextIdent }
    outlets := Vector.ofFn fun n => s.outlets[n].afterCoreReset (s.outletEntry n)
    sup := .afterReset s.tables.engineAfterReset .link
    tables := { s.tables with staged := s.tables.active.getD .absent, check := Config.crcStart }
    lrx := .afterReset s.lrx.nodeAddress
    ltx := { outbound := [], txd := s.ltx.txd.cutAt s.rate s.now, reject := false, overrun := false, lost := false } }

theorem coreReset_eq (s : State) : coreReset s = announceStart .link (coreCleared s) := rfl

theorem coreReset_outlet (s : State) (n : Fin 16) :
    (coreReset s).outlets[n] = s.outlets[n].afterCoreReset (s.outletEntry n) := by simp [coreReset]

theorem TableStore.engineAfterReset_eq (t : TableStore) :
    t.engineAfterReset = if t.active.isSome then .ready else .unconfigured := by
  unfold engineAfterReset
  cases t.active <;> rfl

/-- START and TXD after a CORE_RESET, by what TXD carried. -/
theorem coreReset_ltx_of_idle {s : State} {since : Nat} (running : s.held = false) (idle : s.ltx.txd = .idle since) :
    (coreReset s).ltx =
      { outbound := [{ tag := 0, body := .notice .start 3, flags := some 0x08 }]
        txd := .sending (max (8 * s.now) since) (max (8 * s.now) since + 12 * s.rate.charTicks)
        reject := false, overrun := false, lost := false } :=
  announceStart_ltx_of_idle (s := coreCleared s) (cause := .link) running rfl ⟨rfl, rfl, rfl⟩
    (congrArg (Txd.cutAt s.rate s.now) idle)

theorem coreReset_ltx_of_busy {s : State} (busy : ∀ since, s.ltx.txd ≠ .idle since) : (coreReset s).ltx =
    { outbound := [{ tag := 0, body := .notice .start 3, flags := none }], txd := s.ltx.txd.cutAt s.rate s.now
      reject := false, overrun := false, lost := false } := by
  refine announceStart_ltx_of_busy (s := coreCleared s) (cause := .link) rfl ⟨rfl, rfl, rfl⟩ fun since idle => ?_
  have idle : s.ltx.txd.cutAt s.rate s.now = .idle since := idle
  cases txd : s.ltx.txd with
  | idle since => exact busy since txd
  | sending began ends => simp [txd, Txd.cutAt] at idle
  | cut ends => simp [txd, Txd.cutAt] at idle

theorem coreReset_flags {s : State} (running : s.held = false) :
    (coreReset s).ltx.reject = false ∧ (coreReset s).ltx.overrun = false ∧ (coreReset s).ltx.lost = false := by
  by_cases idle : ∃ since, s.ltx.txd = .idle since
  · obtain ⟨since, idle⟩ := idle
    rw [coreReset_ltx_of_idle running idle]
    exact ⟨rfl, rfl, rfl⟩
  · rw [coreReset_ltx_of_busy (not_exists.mp idle)]
    exact ⟨rfl, rfl, rfl⟩

/-- Settles O13: START goes by what TXD carries, and every other block keeps what R143 says and resets the rest. -/
theorem coreResetKeepsTables : Obligations.CoreResetKeepsTables := by
  intro s running
  have notices : (coreReset s).notices = noticesAfterReset .link := announceStart_notices _ _
  have lines := lines_of_announced notices (by simp [coreReset, running])
  have flags := coreReset_flags running
  refine ⟨_, exec_coreReset running, ?_⟩
  dsimp only
  rw [notices]
  refine ⟨?_, ?_, ?_, ?_, ?_, ?_, ?_, ?_, ?_, fun n e entry => ?_, fun n entry => ?_, ?_, ?_, ?_, ?_, ?_, fun since idle => ?_,
    fun began ends sending => ?_, fun ends cut => ?_, flags.1, flags.2.1, flags.2.2, lines.1, lines.2.1, lines.2.2,
    noticesAfterReset_get _⟩
  case refine_4 => simp [coreReset, Supervisor.afterReset, TableStore.engineAfterReset_eq]
  case refine_10 =>
    rw [coreReset_outlet, entry]
    rfl
  case refine_11 =>
    rw [coreReset_outlet, entry]
    rfl
  case refine_17 =>
    rw [coreReset_ltx_of_idle running idle]
    exact ⟨rfl, rfl⟩
  case refine_18 =>
    rw [coreReset_ltx_of_busy (by simp [sending]), sending]
    exact ⟨rfl, rfl⟩
  case refine_19 =>
    rw [coreReset_ltx_of_busy (by simp [cut]), cut]
    exact ⟨rfl, rfl⟩
  all_goals simp [coreReset, Tracker.afterReset, Config.crcStart, LineReceiver.afterReset]

/-! ### Edges that are ignored (R10, R20, R65, R77) -/

section

variable {s : State}

theorem edge_of_noLot (running : s.held = false) (noLot : s.lotOpen = false) (f : State → State) (time : Nat) :
    whenRunning (fun s => inLot f (advanceTo time s)) s = advanceTo time s := by
  have noLot' : (advanceTo time s).lotOpen = false := noLot
  rw [whenRunning_of_running running, inLot, noLot']
  exact if_neg Bool.false_ne_true

theorem onAck_of_disabled {n : Fin 16} (disabled : s.outlets[n].state = .disabled) : onAck n s = s := if_pos disabled

theorem onAck_of_no_strobe {n : Fin 16} (drive : ∀ expires claim, s.outlets[n].drive ≠ .strobe expires claim) :
    onAck n s = s := by
  unfold onAck
  split
  · rfl
  · split
    · next strobe => exact absurd strobe (drive _ _)
    · rfl
    · rfl

end

/-- Settles O16: without a lot no edge is taken, and an ACK needs a strobe on an enabled outlet. -/
theorem idleEdgesAreIgnored : Obligations.IdleEdgesAreIgnored := by
  intro time s running
  refine ⟨fun home noLot => congrArg Host.Outcome.next (edge_of_noLot running noLot (onForwardIndex home) time),
    fun noLot => congrArg Host.Outcome.next (edge_of_noLot running noLot onReverseIndex time), fun n ignored => ?_⟩
  have kept (ignored : onAck n (advanceTo time s) = advanceTo time s) :
      exec (.ack time n) s = .next (advanceTo time s) := by
    refine congrArg Host.Outcome.next ((whenRunning_of_running running _).trans ?_)
    unfold inLot
    split
    · exact ignored
    · rfl
  rcases ignored with drive | noLot | disabled
  · exact kept (onAck_of_no_strobe drive)
  · exact congrArg Host.Outcome.next (edge_of_noLot running noLot (onAck n) time)
  · exact kept (onAck_of_disabled disabled)

/-! ### LOT_START (R128) -/

section

variable {s : State} {f : InFrame} {rest : List InFrame} {lotId pocket : Nat}

theorem exec_lotStart (h : Serves s .lotStart f rest) :
    exec .lotStart s = .next (finishLine (serveLotStart f (setInbound rest s))) := serveRow_of_serves h serveLotStart

theorem field_lotId (small : lotId < 4294967296) (pocket : Nat) :
    field (bytesOf 4 lotId ++ bytesOf 1 pocket) 0 4 = lotId := by
  simp only [bytesOf, field, slice, natOf, List.cons_append, List.drop_zero, List.take, List.foldl, BitVec.toNat_ofNat]
  omega

theorem field_pocket (lotId : Nat) (small : pocket < 256) : field (bytesOf 4 lotId ++ bytesOf 1 pocket) 4 1 = pocket := by
  simp only [bytesOf, field, slice, natOf, List.cons_append, List.nil_append, List.drop, List.take, List.foldl,
    BitVec.toNat_ofNat]
  omega

/-- R128: the tests of a LOT_START in their order, after its frame has left the queue. -/
theorem serveLotStart_eq (payload : f.payload = bytesOf 4 lotId ++ bytesOf 1 pocket) (id : lotId < 4294967296)
    (small : pocket < 256) (rest : List InFrame) (s : State) : serveLotStart f (setInbound rest s) =
      if s.sup.engine ≠ .ready then reply f .refusedState [] (setInbound rest s)
      else if s.dial.pockets ≤ pocket then badField f 2 (setInbound rest s)
      else if s.jam then drawUnstated (reply f .stillActive s.faultBlock (setInbound rest s))
      else reply f .done f.payload (openLot lotId pocket (setInbound rest s)) := by
  have five : ¬ f.payload.length ≠ 5 := by simp [payload, bytesOf_length]
  rw [serveLotStart, if_neg five, payload, field_lotId id, field_pocket lotId small, setInbound_faultBlock]
  rfl

theorem voidRing_fresh {r : PocketRecord} {ident count : Nat} (hr : r ∈ voidRing ident count) :
    ∃ ident, r = PocketRecord.fresh none ident .void := by
  obtain ⟨k, -, made⟩ := List.mem_map.mp hr
  exact ⟨ident + k, made.symm⟩

end

/-- Settles O48: the tests of R128 in their order, and the lot that opens when each is passed. -/
theorem lotStartOpensLot : Obligations.LotStartOpensLot := by
  refine ⟨fun s f rest lotId pocket serves ready payload id small below jam => ?_,
    fun s f rest lotId pocket serves payload id small => ?_⟩
  all_goals
    have answered := exec_lotStart serves
    rw [serveLotStart_eq payload id small] at answered
  · rw [if_neg (not_not.mpr ready), if_neg (not_le.mpr below), if_neg (by simp [jam])] at answered
    have z : (setInbound rest s).z = s.z := State.z_congr (setInbound_tables rest s)
    refine ⟨_, answered, ?_⟩
    simp only [reply_sup, reply_tracker, reply_outlets, reply_tables, openLot_sup, openLot_tracker, openLot_outlet,
      openLot_tables, setInbound_sup, setInbound_tracker, setInbound_outlets, setInbound_tables, z]
    refine ⟨trivial, (List.length_map _).trans List.length_range, fun r hr => voidRing_fresh hr, rfl, rfl, rfl, rfl,
      fun n => trivial, trivial, ?_⟩
    rw [serves.reply_eq_answer]
    simp [answer, RequestKind.byte]
  · refine ⟨fun other => ?_, fun ready above => ?_, fun ready below jam => ⟨_, answered, ?_⟩⟩
    · rw [answered, if_pos other, serves.reply_eq_answer]
      rfl
    · rw [answered, if_neg (not_not.mpr ready), if_pos above, badField, serves.reply_eq_answer]
      rfl
    · rw [if_neg (not_not.mpr ready), if_neg (not_le.mpr below), if_pos jam, serves.reply_eq_answer]
      rfl

end Sys2Proof.Machine

/-! The check position without a part and without a sample (R11, R20, R96, R99): a sample that finds CHECK inactive, and an
index that cancels a pending sample. -/

namespace Sys2Proof.Machine

/-! ### A sample that finds no part (R96) -/

section

variable {s : State} {r : PocketRecord}

theorem bookIf_frame (booked : Bool) (pocket : Nat) (report : SortReport) (s : State) :
    (bookIf booked pocket report s).outlets = s.outlets ∧ (bookIf booked pocket report s).tables = s.tables
      ∧ (bookIf booked pocket report s).lrx = s.lrx ∧ (bookIf booked pocket report s).now = s.now := by
  unfold bookIf
  split <;> simp

/-- R96: the rows of CHECK inactive in which the record at Z changes: a DECIDED one is released, a counted one booked. -/
theorem sampleClear_of_stands (stands : r.phase.stands = true) (s : State) : sampleClear r s =
    modRing s.z (.settle (clearPhase r.counted r.phase))
      (bookIf r.counted (s.pocketAt s.z) (s.unaccountedReport r (s.pocketAt s.z)) (releaseIfDecided r s)) := by
  have tables := releaseIfDecided_tables r s
  have z : (releaseIfDecided r s).z = s.z := State.z_congr tables
  have pocket : (releaseIfDecided r s).pocketAt s.z = s.pocketAt s.z := State.pocketAt_congr tables (by simp) _
  have report : (releaseIfDecided r s).trackerReport r (s.pocketAt s.z) = s.unaccountedReport r (s.pocketAt s.z) := by
    rw [← trackerReport_eq]
    simp [State.trackerReport, State.sweepOutlet_of_active (congrArg TableStore.active tables)]
  have booked (t : State) (same : t = releaseIfDecided r s) (phase : Phase) :
      (if r.counted then bookAtCheck r t else modRing s.z (.settle phase) t) =
        modRing s.z (.settle (if r.counted then .lost else phase))
          (bookIf r.counted (s.pocketAt s.z) (s.unaccountedReport r (s.pocketAt s.z)) (releaseIfDecided r s)) := by
    subst same
    cases r.counted with
    | false => rfl
    | true => simp only [if_true, bookAtCheck, bookRecord, bookIf, z, pocket, report]
  have kept (other : r.phase ≠ .decided) : s = releaseIfDecided r s := (if_neg other).symm
  unfold sampleClear
  cases phase : r.phase
  case held => exact booked s (kept (by simp [phase])) .void
  case decided => exact booked (release r s) (if_pos phase).symm .void
  case stranded => exact booked s (kept (by simp [phase])) .void
  case retained =>
    refine (booked s (kept (by simp [phase])) .lost).trans ?_
    rw [ite_self]
    rfl
  all_goals simp [phase, Phase.stands] at stands

theorem sampleClear_of_clear (clear : r.phase.stands = false) (s : State) : sampleClear r s = s := by
  unfold sampleClear
  cases phase : r.phase <;> simp_all [Phase.stands]

end

/-- Settles O25: the record at Z is checked, and where it stands it is released, booked and settled. -/
theorem checkSampleFindsPocketClear : Obligations.CheckSampleFindsPocketClear := by
  intro s expires r running lot timer at_z
  refine ⟨_, exec_checkSample running lot timer at_z false, ?_⟩
  rw [if_neg Bool.false_ne_true]
  have marked : (sampled expires s).tracker.ring[s.z]? = some { r with checked := true } := by
    rw [sampled_ring, if_pos rfl, at_z, Option.map_some]
  have unmarked {k : Nat} (other : k ≠ s.z) : (sampled expires s).tracker.ring[k]? = s.tracker.ring[k]? := by
    rw [sampled_ring, if_neg other.symm]
  simp only [← Phase.stands_iff]
  cases stands : r.phase.stands with
  | false =>
    have keeps : r.phase ≠ .decided := fun decided => by simp [decided, Phase.stands] at stands
    rw [sampleClear_of_clear stands, if_neg Bool.false_ne_true]
    refine ⟨rfl, marked, fun k => unmarked, rfl, ?_, fun n => ?_, rfl, rfl⟩
    · rw [show (r.counted && decide (false = true)) = false from Bool.and_false _]
      exact ⟨rfl, nofun, fun _ => rfl, rfl⟩
    · rw [Outlet.released, if_neg keeps]
      rfl
  | true =>
    have cleared : sampleClear r (sampled expires s) = modRing s.z (.settle (clearPhase r.counted r.phase))
        (bookIf r.counted (s.pocketAt s.z) (s.unaccountedReport r (s.pocketAt s.z)) (releaseIfDecided r (sampled expires s))) :=
      sampleClear_of_stands stands (sampled expires s)
    have tracker : (bookIf r.counted (s.pocketAt s.z) (s.unaccountedReport r (s.pocketAt s.z))
        (releaseIfDecided r (sampled expires s))).tracker = (sampled expires s).tracker := by
      rw [bookIf_tracker, releaseIfDecided_tracker]
    have books := books_bookIf r.counted (s.pocketAt s.z) (s.unaccountedReport r (s.pocketAt s.z))
      (releaseIfDecided r (sampled expires s))
    rw [cleared, if_pos rfl, show (r.counted && decide (true = true)) = r.counted from Bool.and_true _]
    refine ⟨?_, ?_, fun k other => ?_, ?_, ?_, fun n => ?_, ?_, ?_⟩
    · rw [modRing_checkTimer, tracker]
      rfl
    · rw [modRing_get, if_pos rfl, tracker, marked]
      rfl
    · rw [modRing_get, if_neg other.symm, tracker, unmarked other]
    · rw [modRing_stack, tracker]
      rfl
    · have seen := books.congr_left (s := s) (by simp [sampled, markChecked, stopCheckTimer])
        (by simp [sampled, markChecked, stopCheckTimer]) (by simp [sampled, markChecked, stopCheckTimer])
      exact ⟨seen.sup, seen.notice, seen.quiet, seen.report⟩
    · rw [modRing_outlets, (bookIf_frame ..).1, releaseIfDecided_outlet]
      rfl
    · simp [(bookIf_frame ..).2.1, sampled, markChecked, stopCheckTimer]
    · simp [(bookIf_frame ..).2.2.1, sampled, markChecked, stopCheckTimer]

end Sys2Proof.Machine

/-! An index that cancels a pending check sample (R11, R20, R99): the record at Z is handled as unchecked. -/

namespace Sys2Proof.Machine

section

variable {s : State} {r : PocketRecord} {n : Fin 16}

theorem cancelCheck_of_timer {expires : Nat} (timer : s.tracker.checkTimer = some expires) :
    cancelCheck s = handleUnchecked (stopCheckTimer s) := by
  unfold cancelCheck
  rw [timer]

theorem prepareUnchecked_eq_takeBack (r : PocketRecord) (s : State) : prepareUnchecked r s = takeBack r s := by
  unfold prepareUnchecked takeBack releaseIfDecided
  cases phase : r.phase <;> simp

theorem Phase.clearUnchecked_iff (p : Phase) : p.clearUnchecked = true ↔ p ∈ [Phase.empty, .gone, .lost, .void] := by
  cases p <;> decide

theorem handleUnchecked_of_clear (at_z : s.tracker.ring[s.z]? = some r) (clear : r.phase.clearUnchecked = true) :
    handleUnchecked s = s := by
  simp only [handleUnchecked, at_z, clear, if_true]

/-- R99: the handling of an unchecked record that is not clear. -/
def retainUnchecked (r : PocketRecord) (s : State) : State :=
  raiseFault .sweepUnchecked s.faultPocket r.seq (modRing s.z (.settle .retained) (takeBack r s))

theorem handleUnchecked_of_unclear (at_z : s.tracker.ring[s.z]? = some r) (unclear : r.phase.clearUnchecked = false) :
    handleUnchecked s = retainUnchecked r s := by
  simp only [handleUnchecked, at_z, unclear, Bool.false_eq_true, if_false, prepareUnchecked_eq_takeBack]
  rfl

theorem retainUnchecked_ring (r : PocketRecord) (s : State) (k : Nat) : (retainUnchecked r s).tracker.ring[k]?
    = if s.z = k then ((takeBack r s).tracker.ring[k]?).map (.settle .retained) else (takeBack r s).tracker.ring[k]? := by
  rw [retainUnchecked, raiseFault_tracker, modRing_get]

theorem retainUnchecked_tracker (r : PocketRecord) (s : State) :
    (retainUnchecked r s).tracker = { s.tracker with ring := (retainUnchecked r s).tracker.ring } := by
  simp only [retainUnchecked, raiseFault_tracker, modRing, setRing]
  rw [takeBack_tracker]

theorem retainUnchecked_sup (r : PocketRecord) (s : State) :
    (retainUnchecked r s).sup = (raiseFault .sweepUnchecked s.faultPocket r.seq s).sup :=
  raiseFault_sup_congr (by rw [modRing_sup, takeBack_sup]) ..

theorem retainUnchecked_outlet (r : PocketRecord) (s : State) (m : Fin 16) : (retainUnchecked r s).outlets[m]
    = { (takeBack r s).outlets[m] with slot := if s.firesAllowed then .free else (takeBack r s).outlets[m].slot } := by
  have fires : (modRing s.z (.settle .retained) (takeBack r s)).firesAllowed = s.firesAllowed := by
    simp only [State.firesAllowed, modRing_sup, takeBack_sup]
  rw [retainUnchecked, raiseFault_outlet, raiseFault_slot, fires, modRing_outlets]

theorem retainUnchecked_notice {i : Fin 11} (other : i ≠ Condition.halted.index) (r : PocketRecord) (s : State) :
    (retainUnchecked r s).notices[i] = (takeBack r s).notices[i] := by
  rw [retainUnchecked, raiseFault_notice _ _ _ _ other, modRing_notices]

theorem retainUnchecked_frame (r : PocketRecord) (s : State) : (retainUnchecked r s).ltx = s.ltx
    ∧ (retainUnchecked r s).tables = s.tables ∧ (retainUnchecked r s).lrx = s.lrx ∧ (retainUnchecked r s).now = s.now := by
  have now : (takeBack r s).now = s.now := by unfold takeBack; split <;> simp
  refine ⟨?_, ?_, ?_, ?_⟩
  · simp [retainUnchecked, takeBack_ltx]
  · simp [retainUnchecked, takeBack_tables]
  · simp [retainUnchecked, takeBack_lrx]
  · simp [retainUnchecked, now]

/-- R99: the entry of a FIRING record that leaves Z unchecked is missed by its outlet. -/
theorem missTaken_retainUnchecked (at_z : s.tracker.ring[s.z]? = some r) (firing : r.phase = .firing)
    (entry : s.entryOutlet r.name = some n) :
    MissTaken s (retainUnchecked r s) n (s.outlets[n].queue.eraseP fun e => e.name == r.name) := by
  have taken := missTaken_takeMiss n (s.outlets[n].queue.eraseP fun e => e.name == r.name) s
  have missed : takeBack r s = takeMiss n (s.outlets[n].queue.eraseP fun e => e.name == r.name) s := by
    rw [takeBack_firing firing, missEntryOf_eq_takeMiss entry]
  refine taken.congr_right (fun m => ?_) ?_ fun k r' at_k decided => ?_
  · rw [retainUnchecked_outlet, missed]
  · rw [retainUnchecked_notice (by decide), missed]
  · have apart : s.z ≠ k := fun same => by
      obtain rfl := Option.some.inj (at_z.symm.trans (same ▸ at_k))
      nomatch firing.symm.trans decided
    rw [retainUnchecked_ring, if_neg apart, missed]

end

/-- Settles O17: a clear record stays; any other is taken back, RETAINED, and raises SWEEP_UNCHECKED. -/
theorem cancelledSampleIsUnchecked : Obligations.CancelledSampleIsUnchecked := by
  refine fun s => ⟨fun timer => by simp only [cancelCheck, timer], fun expires r timer at_z => ⟨fun clear => ?_, fun unclear => ?_⟩⟩
  · rw [cancelCheck_of_timer timer,
      handleUnchecked_of_clear (s := stopCheckTimer s) at_z ((Phase.clearUnchecked_iff _).mpr clear)]
    rfl
  rw [← Phase.clearUnchecked_iff, Bool.not_eq_true] at unclear
  have tracker := retainUnchecked_tracker r (stopCheckTimer s)
  have frame := retainUnchecked_frame r (stopCheckTimer s)
  have z : (stopCheckTimer s).z = s.z := rfl
  have kept : (takeBack r (stopCheckTimer s)).tracker.ring[s.z]? = some r :=
    takeBack_keeps (s := stopCheckTimer s) at_z rfl
  refine ⟨retainUnchecked r (stopCheckTimer s), ?_, ?_, ?_, ?_, fun other k apart => ?_, ?_, fun other m => ?_,
    fun n firing entry => ?_, frame⟩
  · rw [cancelCheck_of_timer timer, handleUnchecked_of_unclear (s := stopCheckTimer s) at_z unclear]
  · rw [tracker]
    rfl
  · rw [tracker]
    rfl
  · rw [retainUnchecked_ring, z, if_pos rfl]
    exact congrArg (Option.map _) kept
  · rw [retainUnchecked_ring, z, if_neg (Ne.symm apart), takeBack_of_not_firing other, releaseIfDecided_tracker]
    rfl
  · exact (retainUnchecked_sup r (stopCheckTimer s)).trans (raiseFault_sup_congr (s := s) (t := stopCheckTimer s) rfl ..)
  · rw [retainUnchecked_outlet, takeBack_of_not_firing other, releaseIfDecided_outlet]
    rfl
  · exact (missTaken_retainUnchecked (s := stopCheckTimer s) at_z firing entry).congr_left rfl rfl rfl rfl
      fun _ _ at_k _ => at_k

end Sys2Proof.Machine

/-! The parts of a forward index at the stations and the outlets (R13 to R18, R48, R70, R78, R91). -/

namespace Sys2Proof.Machine

/-! ### Deadlines -/

section

variable {s : State} {k : Nat} {r : PocketRecord} {st : Station}

/-- A change of a ring record that leaves the record leaves the state. -/
theorem modRing_of_fixed (at_k : s.tracker.ring[k]? = some r) {f : PocketRecord → PocketRecord} (fixed : f r = r) :
    modRing k f s = s := by
  obtain ⟨inRing, rfl⟩ := List.getElem?_eq_some_iff.mp at_k
  rw [modRing_of_some at_k, fixed, List.set_getElem_self inRing]

theorem PocketRecord.hasResult_iff : r.hasResult st = true ↔ ∃ x ∈ r.results, x.station = st := by
  simp [PocketRecord.hasResult]

theorem PocketRecord.hasResult_eq_false_iff : r.hasResult st = false ↔ ∀ x ∈ r.results, x.station ≠ st := by
  simp [PocketRecord.hasResult]

/-- R47: between a state and the one after a final verdict of a ring record the record is DECIDED. -/
theorem finalVerdict_decides (at_k : s.tracker.ring[k]? = some r) (v : Verdict) (reason : Reason) :
    s.decides (finalVerdict k v reason s) k r v reason := by
  refine ⟨?_, finalVerdict_outlets k v reason s⟩
  have at_k' : (modOutlet (s.route (s.firstCandidate v) k).outlet
    (fun o => { o with reserved := o.reserved + 1 }) s).tracker.ring[k]? = some r := by rwa [modOutlet_tracker]
  rw [finalVerdict, modRing_tracker_of_some at_k', modOutlet_tracker]

theorem contactDeadline_of_some {e : StationEntry} (station : s.station .contact = some e)
    (at_k : s.tracker.ring[e.offset + e.allowance + 1]? = some r) :
    (r.phase = .open → contactDeadline s = { s with tracker := { s.tracker with
      ring := s.tracker.ring.set (e.offset + e.allowance + 1) { r with phase := .void, reason := some .late } } }) ∧
    (r.phase ≠ .open → contactDeadline s = s) := by
  simp only [contactDeadline, station]
  exact ⟨fun open_ => by rw [modRing_of_some at_k, if_pos open_], fun other => modRing_of_fixed at_k (if_neg other)⟩

end

/-- Settles O20: each deadline acts on the record one offset past the station's window. -/
theorem deadlinesDecideLateRecords : Obligations.DeadlinesDecideLateRecords := by
  refine ⟨fun s => rfl, fun s e r station at_k => contactDeadline_of_some station at_k,
    fun s st e r station at_k => ⟨fun held unmeasured => ?_, fun other => ?_⟩, fun s st station => ?_⟩
  · refine ⟨finalVerdict (e.offset + e.allowance + 1) .retest .late s, ?_, finalVerdict_decides at_k .retest .late, ?_⟩
    · simp only [verdictDeadline, station, at_k]
      rw [if_pos ⟨held, PocketRecord.hasResult_eq_false_iff.mpr unmeasured⟩]
    · simp [finalVerdict]
  · simp only [verdictDeadline, station, at_k]
    refine if_neg fun ⟨held, unmeasured⟩ => ?_
    obtain unheld | measured := other
    · exact unheld held
    · exact Bool.false_ne_true (unmeasured.symm.trans (PocketRecord.hasResult_iff.mpr measured))
  · simp only [verdictDeadline, station]

/-! ### Arrivals -/

section

variable {s : State} {n : Fin 16} {e : OutletEntry} {r : PocketRecord}

theorem PocketRecord.sweepable_iff : r.sweepable n = true ↔ r.decidedFor n = true ∨ r.phase = .stranded ∨ r.phase = .void := by
  unfold PocketRecord.sweepable PocketRecord.decidedFor
  cases r.phase <;> simp

/-- R70: what a state does with an outlet's new fire delay. -/
theorem startDelay_eq (n : Fin 16) (name : RecordName) (fireDelay : Nat) (s : State) :
    (fireDelay ≠ 0 → startDelay n name fireDelay s = { s with outlets := s.outlets.set n { s.outlets[n] with
      slot := .delay name (s.now + fireDelay) } }) ∧
    (fireDelay = 0 → startDelay n name fireDelay s = fireTests n name s) :=
  ⟨fun pos => if_neg pos, fun zero => if_pos zero⟩

/-- R17, R18: the hand-off of a record that no strobe of the outlet claims. -/
theorem handOff_of_some (entry : s.outletEntry n = some e) (at_e : s.tracker.ring[e.offset]? = some r)
    (unclaimed : s.outlets[n].drive.claim ≠ some r.name) : handOff n s =
      if e.sweep then if s.firesAllowed && r.sweepable n then startDelay n r.name e.fireDelay s else s
      else if r.decidedFor n then arrival n e r s else s := by
  simp only [handOff, entry, at_e, if_neg unclaimed]

/-- R17, R18: the hand-offs that start a fire delay. -/
theorem handOff_of_starts (entry : s.outletEntry n = some e) (at_e : s.tracker.ring[e.offset]? = some r)
    (unclaimed : s.outlets[n].drive.claim ≠ some r.name) (fires : s.firesAllowed = true)
    (starts : (e.sweep = false ∧ r.decidedFor n = true ∧ (s.outlets[n].state = .open ∨ s.outlets[n].state = .full)) ∨
      (e.sweep = true ∧ (r.decidedFor n = true ∨ r.phase = .stranded ∨ r.phase = .void))) :
    handOff n s = startDelay n r.name e.fireDelay s := by
  rw [handOff_of_some entry at_e unclaimed]
  obtain ⟨plain, decided, taking⟩ | ⟨sweep, sweepable⟩ := starts
  · rw [plain, if_neg Bool.false_ne_true, if_pos decided]
    unfold arrival
    rw [if_neg (not_not_intro fires)]
    obtain state | state := taking <;> rw [state]
  · rw [if_pos sweep, PocketRecord.sweepable_iff.mpr sweepable, fires]
    rfl

end

/-- Settles O22: by the outlet, its state and the record at its offset. -/
theorem arrivalsStartFireDelay : Obligations.ArrivalsStartFireDelay := by
  refine ⟨fun s => rfl, fun n s e r entry at_e unclaimed => ⟨fun fires starts => ?_, fun fires plain decided faulted => ?_,
    fun idle => ?_⟩, fun n s idle => ?_⟩
  · rw [handOff_of_starts entry at_e unclaimed fires starts]
    exact startDelay_eq n r.name e.fireDelay s
  · have at_e' : (release r s).tracker.ring[e.offset]? = some r := by rwa [release_tracker]
    have phase : r.phase = .decided := (PocketRecord.decidedFor_iff.mp decided).1
    refine ⟨modRing e.offset (.strand .outletFaulted) (release r s), ?_, ?_, fun m => ?_, ?_⟩
    · rw [handOff_of_some entry at_e unclaimed, plain, if_neg Bool.false_ne_true, if_pos decided, arrival,
        if_neg (not_not_intro fires), faulted]
    · rw [modRing_tracker_of_some at_e', release_tracker]
      rfl
    · rw [modRing_outlets, ← releaseIfDecided_outlet, releaseIfDecided, if_pos phase]
    · simp
  · rw [handOff_of_some entry at_e unclaimed]
    obtain halted | ⟨undecided, unswept⟩ := idle
    · simp [arrival, halted]
    · rw [undecided]
      obtain plain | other := unswept
      · simp [plain]
      · have unsweepable : r.sweepable n = false := by
          rw [← Bool.not_eq_true, PocketRecord.sweepable_iff]
          simpa [undecided] using other
        simp [unsweepable]
  · obtain none | ⟨e, r, entry, at_e, claimed⟩ := idle
    · simp only [handOff, none]
    · simp only [handOff, entry, at_e, if_pos claimed]

end Sys2Proof.Machine

/-! A HOME mismatch suspects the ring (R13). -/

namespace Sys2Proof.Machine

section

variable {s : State} {r : PocketRecord}

/-- R13, R59: the release of a counted record is that of a standing one, a DECIDED record being one. -/
theorem releaseCounted_eq (r : PocketRecord) (s : State) :
    (if r.counted then releaseIfDecided r s else s) = { s with outlets := giveBack r s.outlets } := by
  by_cases standing : r.standing = true
  · have counted : r.counted = true := (Bool.and_eq_true_iff.mp standing).1
    rw [if_pos counted, giveBack, if_pos standing, releaseIfDecided_eq]
  · rw [giveBack, if_neg standing]
    split
    · next counted =>
      have undecided : r.phase ≠ .decided := fun decided => standing
        ((PocketRecord.standing_of_stands (by rw [decided]; rfl)).trans counted)
      exact if_neg undecided
    · rfl

theorem foldl_releaseCounted (records : List PocketRecord) (s : State) :
    records.foldl (fun s r => if r.counted then releaseIfDecided r s else s) s
      = { s with outlets := records.foldl (fun outlets r => giveBack r outlets) s.outlets } := by
  induction records generalizing s with
  | nil => rfl
  | cons r records ih => rw [List.foldl_cons, releaseCounted_eq, ih, List.foldl_cons]

/-- R13: the state after a HOME mismatch, by its parts. -/
theorem homeMismatch_eq (s : State) : homeMismatch s = { raiseFault .homeMismatch s.faultPocket none s with
    tracker := { s.tracker with loadPocket := some 0, ring := s.tracker.ring.map PocketRecord.suspect }
    outlets := s.tracker.ring.foldl (fun outlets r => giveBack r outlets)
      (raiseFault .homeMismatch s.faultPocket none s).outlets } := by
  unfold homeMismatch
  dsimp only
  rw [foldl_releaseCounted, raiseFault_tracker]
  rfl

theorem PocketRecord.suspect_counted (phase : r.phase = .held ∨ r.phase = .decided) (counted : r.counted = true) :
    r.suspect = { r with phase := .stranded, reason := some .trackSuspect, target := none } := by
  obtain phase | phase := phase <;> simp [PocketRecord.suspect, phase, counted, PocketRecord.strand]

theorem PocketRecord.suspect_open (phase : r.phase = .open) :
    r.suspect = { r with phase := .void, reason := some .trackSuspect } := by
  simp only [PocketRecord.suspect, phase]

theorem PocketRecord.suspect_kept
    (kept : r.phase ∉ [Phase.held, .decided, .open] ∨ (r.phase ≠ .open ∧ r.counted = false)) : r.suspect = r := by
  unfold PocketRecord.suspect
  cases phase : r.phase <;> simp_all

end

/-- Settles O19: a mismatch is the fault, the releases of the counted DECIDED records and the phase changes. -/
theorem homeMismatchSuspectsRing : Obligations.HomeMismatchSuspectsRing := by
  rintro home s u rfl
  refine ⟨fun agrees => if_pos agrees, fun differs => ?_⟩
  have mismatch : compareHome home s = homeMismatch s := if_neg differs
  rw [mismatch, homeMismatch_eq]
  refine ⟨rfl, rfl, List.length_map .., fun k r at_k => ?_, fun n => ?_, rfl, rfl, ?_, ?_, ?_, ?_⟩
  · have at_k' : (s.tracker.ring.map PocketRecord.suspect)[k]? = some r.suspect := by
      rw [List.getElem?_map, at_k, Option.map_some]
    dsimp only
    rw [at_k']
    exact ⟨fun phase counted => congrArg some (PocketRecord.suspect_counted phase counted),
      fun phase => congrArg some (PocketRecord.suspect_open phase),
      fun kept => congrArg some (PocketRecord.suspect_kept kept)⟩
  · refine (foldl_giveBack_outlet s.tracker.ring _ n).trans ?_
    rw [raiseFault_outlet, raiseFault_slot]
    split
    · rw [Outlet.forgetAll_free]
      rfl
    · rfl
  all_goals simp

end Sys2Proof.Machine

/-! The parts of an index after the move keep the names of the Tracker's records (R7, R13 to R18). -/

namespace Sys2Proof.Machine

namespace SameNames

variable {s t : State}

theorem refl (s : State) : SameNames s s := of_tracker rfl

theorem foldl {α : Type} {f : State → α → State} (keeps : ∀ s x, SameNames s (f s x)) (xs : List α) (s : State) :
    SameNames s (xs.foldl f s) :=
  List.foldlRecOn (motive := SameNames s) xs f (.refl s) fun t h x _ => h.trans (keeps t x)

/-- The records keep their number, seq and name. -/
theorem length (h : SameNames s t) : t.tracker.ring.length = s.tracker.ring.length := by
  simpa [State.ringNames] using congrArg List.length h.ring

theorem seq (h : SameNames s t) (k : Nat) :
    (t.tracker.ring[k]?).map PocketRecord.seq = (s.tracker.ring[k]?).map PocketRecord.seq := by
  have seq (r : PocketRecord) : r.seq = r.name.seq := by
    unfold PocketRecord.name
    cases r.seq <;> rfl
  have at_k := congrArg (fun names => (names[k]?).map RecordName.seq) h.ring
  simpa [State.ringNames, Function.comp_def, ← seq] using at_k

/-! ### HOME -/

theorem suspect_name (r : PocketRecord) : r.suspect.name = r.name := by
  unfold PocketRecord.suspect
  split <;> (try split) <;> rfl

theorem compareHome (home : Bool) (s : State) : SameNames s (compareHome home s) := by
  unfold Machine.compareHome
  split
  · exact .refl s
  · rw [homeMismatch_eq]
    exact ⟨by simp [State.ringNames, Function.comp_def, suspect_name], rfl, rfl, rfl⟩

/-! ### Deadlines -/

theorem contactDeadline (s : State) : SameNames s (contactDeadline s) := by
  unfold Machine.contactDeadline
  split
  · exact modRing _ _ (fun r => by split <;> rfl) s
  · exact .refl s

theorem finalVerdict (k : Nat) (v : Verdict) (reason : Reason) (s : State) : SameNames s (finalVerdict k v reason s) :=
  ⟨ringNames_finalVerdict v reason, rfl, rfl, rfl⟩

theorem verdictDeadline (st : Station) (s : State) : SameNames s (verdictDeadline st s) := by
  unfold Machine.verdictDeadline
  split
  · split
    · split
      · exact finalVerdict ..
      · exact .refl s
    · exact .refl s
  · exact .refl s

theorem deadlines (s : State) : SameNames s (deadlines s) :=
  ((contactDeadline s).trans (verdictDeadline .recheck _)).trans (verdictDeadline .value _)

/-! ### Passes -/

theorem strandReleased (k : Nat) (reason : Reason) (r : PocketRecord) (s : State) :
    SameNames s (Machine.modRing k (.strand reason) (release r s)) :=
  (of_tracker (release_tracker r s)).trans (modRing k (.strand reason) (fun _ => rfl) _)

theorem pass (n : Fin 16) (s : State) : SameNames s (pass n s) := by
  unfold Machine.pass
  split
  · split
    · split
      · exact strandReleased ..
      · exact .refl s
    · exact .refl s
  · exact .refl s

theorem passes (s : State) : SameNames s (passes s) :=
  (foldl (fun s n => pass n s) allOutlets s).trans (of_tracker (endSlots_tracker _))

/-! ### Arrivals -/

theorem backlog (n : Fin 16) (name : RecordName) (s : State) : SameNames s (backlog n name s) := by
  have freed : SameNames s (modOutlet n (fun o => { o with slot := .free }) s) := of_tracker (modOutlet_tracker ..)
  unfold Machine.backlog
  dsimp only
  split
  · split
    · split
      · exact freed.trans ((of_tracker (releaseIfDecided_tracker ..)).trans (modRing _ (.strand .backlog) (fun _ => rfl) _))
      · exact freed
    · exact freed
  · exact freed

theorem recordFire (n : Fin 16) (k : Nat) (r : PocketRecord) (s : State) : SameNames s (recordFire n k r s) :=
  (of_tracker (modOutlet_tracker ..)).trans ⟨ringNames_modRing fun _ _ => rfl, rfl, rfl, rfl⟩

theorem beginFire (n : Fin 16) (name : RecordName) (s : State) : SameNames s (beginFire n name s) := by
  have freed : SameNames s (modOutlet n (fun o => { o with slot := .free }) s) := of_tracker (modOutlet_tracker ..)
  unfold Machine.beginFire
  dsimp only
  split
  · split
    · split
      · split
        · exact freed.trans ((of_tracker (modOutlet_tracker ..)).trans (recordFire ..))
        · exact freed.trans (of_tracker (modOutlet_tracker ..))
      · exact freed
    · exact freed
  · exact freed

theorem fireTests (n : Fin 16) (name : RecordName) (s : State) : SameNames s (fireTests n name s) := by
  unfold Machine.fireTests
  split
  · exact backlog n name s
  · split
    · exact beginFire n name s
    · exact of_tracker (modOutlet_tracker ..)

theorem startDelay (n : Fin 16) (name : RecordName) (fireDelay : Nat) (s : State) :
    SameNames s (startDelay n name fireDelay s) := by
  unfold Machine.startDelay
  split
  · exact fireTests n name s
  · exact of_tracker (modOutlet_tracker ..)

theorem arrival (n : Fin 16) (e : OutletEntry) (r : PocketRecord) (s : State) : SameNames s (arrival n e r s) := by
  unfold Machine.arrival
  split
  · exact .refl s
  · split
    · exact startDelay ..
    · exact startDelay ..
    · exact strandReleased ..
    · exact .refl s

theorem handOff (n : Fin 16) (s : State) : SameNames s (handOff n s) := by
  unfold Machine.handOff
  split
  · split
    · split
      · exact .refl s
      · split
        · split
          · exact startDelay ..
          · exact .refl s
        · split
          · exact arrival ..
          · exact .refl s
    · exact .refl s
  · exact .refl s

theorem arrivals (s : State) : SameNames s (arrivals s) := foldl (fun s n => handOff n s) allOutlets s

end SameNames

end Sys2Proof.Machine

/-! The passes of a forward index (R16, R78): which outlet strands which record, and what the outlets hold afterwards. -/

namespace Sys2Proof.Machine

section

variable {s t : State} {n m : Fin 16} {k : Nat} {r : PocketRecord} {e : OutletEntry}

/-! ### The pass of one outlet -/

/-- R16: the DECIDED record that has just left the offset of its outlet. -/
def State.passedBy (s : State) (n : Fin 16) : Option PocketRecord :=
  (s.outletEntry n).bind fun e => (s.tracker.ring[e.offset + 1]?).filter fun r => r.decidedFor n

theorem State.passing_eq (s : State) : s.passing = allOutlets.filterMap s.passedBy := rfl

/-- R16: whether a record at offset `k` is one that outlet `n` strands. -/
def State.leaves (s : State) (n : Fin 16) (k : Nat) (r : PocketRecord) : Bool :=
  r.decidedFor n && (s.outletEntry n).any fun e => e.offset + 1 == k

theorem State.leaves_iff : s.leaves n k r = true ↔ r.decidedFor n = true ∧ ∃ e, s.outletEntry n = some e ∧ e.offset + 1 = k := by
  simp [State.leaves, Option.any_eq_true]

theorem State.leaves_congr (tables : t.tables = s.tables) : t.leaves = s.leaves := by
  funext n k r
  rw [State.leaves, State.outletEntry_congr tables, State.leaves]

theorem State.passedBy_eq_some_iff :
    s.passedBy n = some r ↔ ∃ e, s.outletEntry n = some e ∧ s.tracker.ring[e.offset + 1]? = some r ∧ r.decidedFor n = true := by
  simp [State.passedBy, Option.bind_eq_some_iff, Option.filter_eq_some_iff]

theorem PocketRecord.decidedFor_unique (decided : r.decidedFor n = true) (other : r.decidedFor m = true) : n = m :=
  Option.some.inj ((PocketRecord.decidedFor_iff.mp decided).2.symm.trans (PocketRecord.decidedFor_iff.mp other).2)

theorem PocketRecord.decidedFor_strand (reason : Reason) : (r.strand reason).decidedFor n = false := by
  simp [PocketRecord.decidedFor, PocketRecord.strand]

theorem pass_of_passed (entry : s.outletEntry n = some e) (passed : s.tracker.ring[e.offset + 1]? = some r)
    (decided : r.decidedFor n = true) :
    pass n s = modRing (e.offset + 1) (.strand .fireCancelled) (release r s) := by
  simp only [pass, entry, passed, decided, if_true]

theorem pass_of_idle (idle : s.passedBy n = none) : pass n s = s := by
  cases entry : s.outletEntry n with
  | none => simp only [pass, entry]
  | some e =>
    cases at_k : s.tracker.ring[e.offset + 1]? with
    | none => simp only [pass, entry, at_k]
    | some r =>
      have undecided : r.decidedFor n ≠ true := fun decided =>
        nomatch idle.symm.trans (State.passedBy_eq_some_iff.mpr ⟨e, entry, at_k, decided⟩)
      simp only [pass, entry, at_k, if_neg undecided]

theorem pass_ring (n : Fin 16) (s : State) (k : Nat) : (pass n s).tracker.ring[k]?
    = (s.tracker.ring[k]?).map fun r => if s.leaves n k r then r.strand .fireCancelled else r := by
  cases passed : s.passedBy n with
  | none =>
    rw [pass_of_idle passed]
    cases at_k : s.tracker.ring[k]? with
    | none => rfl
    | some r =>
      have stays : ¬ s.leaves n k r = true := fun leaves => by
        obtain ⟨decided, e, entry, rfl⟩ := State.leaves_iff.mp leaves
        nomatch passed.symm.trans (State.passedBy_eq_some_iff.mpr ⟨e, entry, at_k, decided⟩)
      rw [Option.map_some, if_neg stays]
  | some r =>
    obtain ⟨e, entry, at_e, decided⟩ := State.passedBy_eq_some_iff.mp passed
    rw [pass_of_passed entry at_e decided, modRing_get, release_tracker]
    split
    · next here =>
      rw [← here, at_e, Option.map_some, Option.map_some, if_pos (State.leaves_iff.mpr ⟨decided, e, entry, rfl⟩)]
    · next apart =>
      have stays (r' : PocketRecord) : s.leaves n k r' = false := by
        simp [State.leaves, entry, apart]
      simp [stays]

/-- R59, R69: the outlets forget the record that an outlet strands, and its target has lost a reservation. -/
theorem pass_outlet (n m : Fin 16) (s : State) : (pass n s).outlets[m] = { s.outlets[m].forgetAll (s.passedBy n).toList with
    reserved := s.outlets[m].reserved - if n = m ∧ (s.passedBy n).isSome then 1 else 0 } := by
  cases passed : s.passedBy n with
  | none =>
    rw [pass_of_idle passed]
    simp [Outlet.forgetAll]
  | some r =>
    obtain ⟨e, entry, at_e, decided⟩ := State.passedBy_eq_some_iff.mp passed
    obtain ⟨phase, target⟩ := PocketRecord.decidedFor_iff.mp decided
    have released : (release r s).outlets[m] = s.outlets[m].released r m := by
      rw [← releaseIfDecided_outlet, releaseIfDecided, if_pos phase]
    rw [pass_of_passed entry at_e decided, modRing_outlets, released, Outlet.released, if_pos phase, target]
    by_cases same : n = m
    · subst same
      simp [Outlet.forgetAll, Outlet.forget]
    · simp [Outlet.forgetAll, Outlet.forget, same]

/-- The pass of one outlet takes no record of another. -/
theorem pass_passedBy (other : m ≠ n) (s : State) : (pass n s).passedBy m = s.passedBy m := by
  rw [State.passedBy, State.outletEntry_congr (pass_tables n s), State.passedBy]
  cases s.outletEntry m with
  | none => rfl
  | some e =>
    rw [Option.bind_some, Option.bind_some, pass_ring]
    cases s.tracker.ring[e.offset + 1]? with
    | none => rfl
    | some r =>
      rw [Option.map_some]
      split
      · next leaves =>
        have undecided : r.decidedFor m = false := Bool.not_eq_true _ ▸ fun decided =>
          other (PocketRecord.decidedFor_unique decided (State.leaves_iff.mp leaves).1)
        rw [Option.filter_some, Option.filter_some, PocketRecord.decidedFor_strand, undecided]
        rfl
      · rfl

/-! ### The passes of all outlets -/

theorem foldl_pass_ring (outlets : List (Fin 16)) (s : State) (k : Nat) :
    (outlets.foldl (fun s n => pass n s) s).tracker.ring[k]?
      = (s.tracker.ring[k]?).map fun r => if outlets.any fun n => s.leaves n k r then r.strand .fireCancelled else r := by
  induction outlets generalizing s with
  | nil => simp
  | cons n outlets ih =>
    rw [List.foldl_cons, ih, pass_ring, Option.map_map, State.leaves_congr (pass_tables n s)]
    refine congrArg (Option.map · _) (funext fun r => ?_)
    rw [Function.comp_apply, List.any_cons]
    cases leaves : s.leaves n k r with
    | true =>
      have settled (m : Fin 16) : s.leaves m k (r.strand .fireCancelled) = false := by
        rw [State.leaves, PocketRecord.decidedFor_strand, Bool.false_and]
      simp [settled]
    | false => simp

theorem foldl_pass_outlet {outlets : List (Fin 16)} (nodup : outlets.Nodup) (s : State) (m : Fin 16) :
    (outlets.foldl (fun s n => pass n s) s).outlets[m] = { s.outlets[m].forgetAll (outlets.filterMap s.passedBy) with
      reserved := s.outlets[m].reserved - if m ∈ outlets ∧ (s.passedBy m).isSome then 1 else 0 } := by
  induction outlets generalizing s with
  | nil => simp [Outlet.forgetAll]
  | cons n outlets ih =>
    obtain ⟨fresh, nodup⟩ := List.nodup_cons.mp nodup
    have others : outlets.filterMap (pass n s).passedBy = outlets.filterMap s.passedBy :=
      List.filterMap_congr fun m member => pass_passedBy (ne_of_mem_of_not_mem member fresh) s
    have records : (n :: outlets).filterMap s.passedBy = (s.passedBy n).toList ++ outlets.filterMap s.passedBy := by
      cases passed : s.passedBy n <;> simp [passed]
    rw [List.foldl_cons, ih nodup, others, pass_outlet, records, Outlet.forgetAll_append, Outlet.forgetAll_reserved]
    by_cases same : m = n
    · subst same
      simp [fresh]
    · simp [same, Ne.symm same, pass_passedBy same]

theorem passes_ring (s : State) (k : Nat) : (passes s).tracker.ring[k]?
    = (s.tracker.ring[k]?).map fun r => if allOutlets.any fun n => s.leaves n k r then r.strand .fireCancelled else r := by
  rw [passes, endSlots_tracker, foldl_pass_ring]

theorem endSlots_outlet (s : State) (m : Fin 16) : (endSlots s).outlets[m] = { s.outlets[m] with slot := .free } :=
  mapOutlets_get ..

theorem passes_outlet (s : State) (m : Fin 16) : (passes s).outlets[m] = { s.outlets[m].forgetAll s.passing with
    slot := .free, reserved := s.outlets[m].reserved - if (s.passedBy m).isSome then 1 else 0 } := by
  have member : m ∈ allOutlets := List.mem_finRange m
  rw [passes, endSlots_outlet, foldl_pass_outlet (outlets := allOutlets) (List.nodup_finRange 16), ← State.passing_eq]
  simp [member]

theorem passes_frame (s : State) : (passes s).sup = s.sup ∧ (passes s).notices = s.notices ∧ (passes s).ltx = s.ltx
    ∧ (passes s).lrx = s.lrx ∧ (passes s).tables = s.tables ∧ (passes s).now = s.now := by
  have kept := List.foldlRecOn (motive := fun t => t.sup = s.sup ∧ t.notices = s.notices ∧ t.ltx = s.ltx
    ∧ t.lrx = s.lrx ∧ t.tables = s.tables ∧ t.now = s.now) allOutlets (fun s n => pass n s) ⟨rfl, rfl, rfl, rfl, rfl, rfl⟩
    fun t kept n _ => by simpa using kept
  simpa [passes] using kept

end

/-- Settles O21: the outlets pass in turn, each stranding at most one record, and the slots end. -/
theorem passesStrandAndRelease : Obligations.PassesStrandAndRelease := by
  rintro s u rfl
  have names := SameNames.passes s
  refine ⟨fun n e r entry at_k phase target => ?_, fun k r at_k stays => ?_, fun n idle => ?_, fun n => ?_, ?_, ?_, ?_⟩
  · have decided : r.decidedFor n = true := PocketRecord.decidedFor_iff.mpr ⟨phase, target⟩
    have leaves : allOutlets.any (fun m => s.leaves m (e.offset + 1) r) = true :=
      List.any_eq_true.mpr ⟨n, List.mem_finRange n, State.leaves_iff.mpr ⟨decided, e, entry, rfl⟩⟩
    have passed : s.passedBy n = some r := State.passedBy_eq_some_iff.mpr ⟨e, entry, at_k, decided⟩
    constructor
    · rw [passes_ring, at_k, Option.map_some, if_pos leaves]
      rfl
    · rw [passes_outlet, passed]
      rfl
  · have unmoved : ¬ allOutlets.any (fun m => s.leaves m k r) = true := fun leaves => by
      obtain ⟨n, -, leaves⟩ := List.any_eq_true.mp leaves
      obtain ⟨decided, e, entry, here⟩ := State.leaves_iff.mp leaves
      obtain ⟨phase, target⟩ := PocketRecord.decidedFor_iff.mp decided
      obtain ⟨route, routed, rfl⟩ := Option.map_eq_some_iff.mp target
      obtain undecided | apart := stays
      · exact undecided phase
      · exact apart route e routed entry here
    rw [passes_ring, at_k, Option.map_some, if_neg unmoved]
  · have unpassed : s.passedBy n = none := Option.eq_none_iff_forall_ne_some.mpr fun r passed => by
      obtain ⟨e, entry, at_k, decided⟩ := State.passedBy_eq_some_iff.mp passed
      obtain ⟨phase, target⟩ := PocketRecord.decidedFor_iff.mp decided
      obtain undecided | other := idle e r entry at_k
      · exact undecided phase
      · exact other target
    rw [passes_outlet, unpassed]
    rfl
  · rw [passes_outlet]
  · exact names.stack
  · exact names.length
  · exact passes_frame s

end Sys2Proof.Machine

/-! MEAS frames that a test turns away (R23, R24, R31 to R33). -/

namespace Sys2Proof.Machine

section

variable {s : State} {f : InFrame} {rest : List InFrame} {k : Nat} {r : PocketRecord} {m : Meas} {e : StationEntry}
  {reason : Discard}

/-! ### The tests in their order -/

theorem takeMeas_of_noLot (noLot : s.lotOpen = false) : takeMeas f s = discard .noLot s := if_pos noLot

theorem takeMeas_of_badStation (lot : s.lotOpen = true) (bad : Meas.ofPayload f.payload = none ∨
    ∃ m, Meas.ofPayload f.payload = some m ∧ (s.station m.station = none ∨ m.status.belongsTo m.station = false)) :
    takeMeas f s = discard .badStation s := by
  have open_ : ¬ s.lotOpen = false := by rw [lot]; decide
  obtain malformed | ⟨m, payload, bad⟩ := bad
  · simp only [takeMeas, if_neg open_, malformed]
  · cases station : s.station m.station with
    | none => simp only [takeMeas, if_neg open_, payload, station]
    | some e =>
      have foreign : m.status.belongsTo m.station = false := bad.resolve_left (by simp [station])
      simp only [takeMeas, if_neg open_, payload, station, foreign, Bool.false_eq_true, if_false]

theorem takeMeas_of_station (lot : s.lotOpen = true) (payload : Meas.ofPayload f.payload = some m)
    (station : s.station m.station = some e) (belongs : m.status.belongsTo m.station = true) :
    takeMeas f s = placeResult m e s := by
  have open_ : ¬ s.lotOpen = false := by rw [lot]; decide
  simp only [takeMeas, if_neg open_, payload, station, belongs, if_true]

theorem placeResult_of_discarded (placed : s.place e m.pocket = .discarded reason) : placeResult m e s = discard reason s := by
  simp only [placeResult, placed]

theorem placeResult_of_refused (placed : s.place e m.pocket = .placed k) (record : s.tracker.ring[k]? = some r)
    (refused : r.refusal m.station = some reason) : placeResult m e s = discard reason s := by
  simp only [placeResult, placed, record, refused]

/-- R23, R24: the placements that discard a result, by the pocket's offset. -/
theorem State.place_eq_discarded {pocket : Nat} (row : (s.dial.pockets ≤ pocket ∧ reason = .outOfZone) ∨
    (pocket < s.dial.pockets ∧ s.offsetOf pocket < e.offset ∧ reason = .early) ∨
    (pocket < s.dial.pockets ∧ e.offset + e.allowance < s.offsetOf pocket ∧ s.offsetOf pocket ≤ s.z ∧ reason = .late) ∨
    (pocket < s.dial.pockets ∧ e.offset + e.allowance < s.offsetOf pocket ∧ s.z < s.offsetOf pocket ∧ reason = .outOfZone)) :
    s.place e pocket = .discarded reason := by
  unfold State.place
  obtain ⟨beyond, rfl⟩ | ⟨below, before, rfl⟩ | ⟨below, after, inZone, rfl⟩ | ⟨below, after, outside, rfl⟩ := row
  · rw [if_pos beyond]
  · rw [if_neg (by omega), if_pos before]
  · rw [if_neg (by omega), if_neg (by omega), if_neg (by omega), if_pos inZone]
  · rw [if_neg (by omega), if_neg (by omega), if_neg (by omega), if_neg (by omega)]

theorem PocketRecord.refusal_duplicate {st : Station} (measured : ∃ x ∈ r.results, x.station = st) :
    r.refusal st = some .duplicate := if_pos (PocketRecord.hasResult_iff.mpr measured)

/-- R33: why a record that has no result of the station yet refuses one, by its phase. -/
theorem PocketRecord.refusal_phase {st : Station} (unmeasured : ∀ x ∈ r.results, x.station ≠ st)
    (row : (r.phase ∈ [Phase.open, .void] ∧ st ≠ .contact ∧ reason = .notLoaded) ∨
      (r.phase = .empty ∧ st = .contact ∧ reason = .duplicate) ∨
      (r.phase = .empty ∧ st ≠ .contact ∧ reason = .notLoaded) ∨
      (r.phase = .held ∧ st = .contact ∧ reason = .duplicate) ∨
      (r.phase = .held ∧ st = .recheck ∧ (∀ x ∈ r.results, x.station ≠ .value) ∧ reason = .early) ∨
      (r.phase ∈ [Phase.decided, .firing, .gone, .stranded, .retained, .lost] ∧ reason = .final)) :
    r.refusal st = some reason := by
  have new : ¬ r.hasResult st = true := by simpa using PocketRecord.hasResult_eq_false_iff.mpr unmeasured
  unfold PocketRecord.refusal
  rw [if_neg new]
  obtain ⟨phase, other, rfl⟩ | ⟨phase, rfl, rfl⟩ | ⟨phase, other, rfl⟩ | ⟨phase, rfl, rfl⟩ | ⟨phase, rfl, unvalued, rfl⟩
    | ⟨phase, rfl⟩ := row
  · simp only [List.mem_cons, List.not_mem_nil, or_false] at phase
    obtain phase | phase := phase <;> simp only [phase, if_neg other]
  · simp only [phase, if_true]
  · simp only [phase, if_neg other]
  · simp only [phase]
  · simp only [phase, PocketRecord.hasResult_eq_false_iff.mpr unvalued, Bool.false_eq_true, if_false]
  · simp only [List.mem_cons, List.not_mem_nil, or_false] at phase
    obtain phase | phase | phase | phase | phase | phase := phase <;> simp only [phase]

theorem discard_setInbound (reason : Discard) (rest : List InFrame) (s : State) : discard reason (setInbound rest s)
    = raiseNotice .measDiscarded reason.code { s with
        sup := { s.sup with lastDiscard := some reason }
        lrx := { s.lrx with inbound := rest, hold := holdLevel s.link rest.length s.lrx.hold } } := rfl

/-- R31, R168: a frame that the tests turn away, as the Dispatcher serves it. -/
theorem exec_meas_of_discarded (serves : Serves s .meas f rest)
    (discarded : takeMeas f (setInbound rest s) = discard reason (setInbound rest s)) :
    exec .meas s = .next (finishEvent (discard reason (setInbound rest s))) := by
  have served : exec .meas s = .next (finishLine (serveMeas f (setInbound rest s))) := serveRow_of_serves serves serveMeas
  rw [served, serveMeas, discarded, finishEvent]

end

/-- Settles O37: each row is a test of R31 that discards the frame. -/
theorem measIsDiscarded : Obligations.MeasIsDiscarded := by
  intro s f rest reason serves row
  rw [← discard_setInbound]
  refine exec_meas_of_discarded serves ?_
  obtain ⟨noLot, rfl⟩ | ⟨lot, rfl, bad⟩ | ⟨m, e, lp, k, lot, payload, station, belongs, loadPocket, rfl, placed⟩
    | ⟨k, r, m, ⟨-, lot, payload, ⟨e, station, placed⟩, belongs, record⟩, refused⟩ := row
  · exact takeMeas_of_noLot (s := setInbound rest s) noLot
  · exact takeMeas_of_badStation (s := setInbound rest s) lot bad
  · rw [takeMeas_of_station (s := setInbound rest s) lot payload station belongs]
    have offset : s.offsetOf m.pocket = (((lp : Int) - (m.pocket : Int)) % (s.dial.pockets : Int)).toNat := by
      rw [State.offsetOf, loadPocket]
      rfl
    rw [← offset] at placed
    exact placeResult_of_discarded (s := setInbound rest s) (State.place_eq_discarded (s := s) placed)
  · rw [takeMeas_of_station (s := setInbound rest s) lot payload station belongs]
    refine placeResult_of_refused (s := setInbound rest s) placed record ?_
    obtain ⟨measured, rfl⟩ | ⟨unmeasured, row⟩ := refused
    · exact PocketRecord.refusal_duplicate measured
    · exact PocketRecord.refusal_phase unmeasured row

end Sys2Proof.Machine

/-! The reverse index (R9, R20, R21). -/

namespace Sys2Proof.Machine

section

variable {s t u v : State} {r : PocketRecord} {rest : List PocketRecord}

/-! ### The cancelled sample, block by block -/

theorem cancelCheck_eq (s : State) : cancelCheck s = s ∨ cancelCheck s = handleUnchecked (stopCheckTimer s) := by
  unfold cancelCheck
  split
  · exact .inr rfl
  · exact .inl rfl

theorem cancelCheck_loadPocket (s : State) : (cancelCheck s).tracker.loadPocket = s.tracker.loadPocket := by
  obtain same | handled := cancelCheck_eq s
  · rw [same]
  · rw [handled, (Steady.handleUnchecked _).loadPocket]
    rfl

theorem cancelCheck_checkTimer (s : State) : (cancelCheck s).tracker.checkTimer = none := by
  unfold cancelCheck
  split
  · exact (Steady.handleUnchecked _).checkTimer
  · next none => exact none

theorem missEntryOf_notice {i : Fin 11} (other : i ≠ Condition.outletFault.index) (name : RecordName) (s : State) :
    (missEntryOf name s).notices[i] = s.notices[i] := by
  cases entry : s.entryOutlet name with
  | none => simp only [missEntryOf, entry]
  | some n => rw [missEntryOf_eq_takeMiss entry, takeMiss_notice other]

/-- R64, R136: a cancelled sample raises no other notice than OUTLET_FAULT and HALTED. -/
theorem cancelCheck_notice {i : Fin 11} (unfaulted : i ≠ Condition.outletFault.index) (running : i ≠ Condition.halted.index)
    (s : State) : (cancelCheck s).notices[i] = s.notices[i] := by
  obtain same | handled := cancelCheck_eq s
  · rw [same]
  rw [handled]
  cases at_z : (stopCheckTimer s).tracker.ring[(stopCheckTimer s).z]? with
  | none =>
    simp only [handleUnchecked, at_z]
    rfl
  | some r =>
    cases clear : r.phase.clearUnchecked with
    | true =>
      rw [handleUnchecked_of_clear at_z clear]
      rfl
    | false =>
      rw [handleUnchecked_of_unclear at_z clear, retainUnchecked_notice running, takeBack]
      split
      · exact missEntryOf_notice unfaulted r.name _
      · simp only [releaseIfDecided_notices]
        rfl

/-! ### The record at offset 0 -/

/-- R20: a release, and a booking of a record that stands for a part. -/
theorem discardBottom_eq (r : PocketRecord) (s : State) : discardBottom r s
    = bookIf r.standing (s.pocketAt 0) (s.unaccountedReport r (s.pocketAt 0)) (releaseIfDecided r s) := by
  have tables := releaseIfDecided_tables r s
  have pocket : (releaseIfDecided r s).pocketAt 0 = s.pocketAt 0 := State.pocketAt_congr tables (by simp) _
  have report : (releaseIfDecided r s).trackerReport r (s.pocketAt 0) = s.unaccountedReport r (s.pocketAt 0) := by
    rw [← trackerReport_eq]
    simp [State.trackerReport, State.sweepOutlet_of_active (congrArg TableStore.active tables)]
  simp only [discardBottom, bookIf, bookRecord, pocket, report]

theorem PocketRecord.standing_iff : r.standing = (r.counted && (r.phase ∈ [Phase.held, .decided, .stranded, .retained])) := by
  rw [PocketRecord.standing]
  simp only [← Phase.stands_iff, Bool.decide_eq_true]

/-! ### The record at Z -/

/-- R9: the record that joins the ring at Z. -/
def Tracker.popped (t : Tracker) : PocketRecord := t.stack.headD (.fresh none t.nextIdent .void)

theorem popToZ_tracker (s : State) : (popToZ s).tracker = { s.tracker with
    ring := s.tracker.ring ++ [s.tracker.popped]
    stack := s.tracker.stack.tail
    nextIdent := if s.tracker.stack.isEmpty then s.tracker.nextIdent + 1 else s.tracker.nextIdent } := by
  unfold popToZ Tracker.popped
  cases stack : s.tracker.stack with
  | nil => simp [stack]
  | cons top stack => simp

/-! ### The parts in their order -/

/-- R9, R20, R21: the state after the parts of a reverse index, but for the gap's notice. -/
def stepBack (r : PocketRecord) (rest : List PocketRecord) (v : State) : State :=
  endSlots (moveLoadPocket (-1) (popToZ (setRing rest (discardBottom r v))))

theorem reverseParts_of_cons (ring : (cancelCheck s).tracker.ring = r :: rest) :
    reverseParts s = raiseGap (cancelCheck s).tracker.stack.isEmpty (stepBack r rest (cancelCheck s)) := by
  have stack : (setRing rest (discardBottom r (cancelCheck s))).tracker.stack = (cancelCheck s).tracker.stack := by
    simp only [setRing, discardBottom_tracker]
  simp only [reverseParts, ring, stack]
  rfl

theorem stepBack_tracker (r : PocketRecord) (rest : List PocketRecord) (v : State) : (stepBack r rest v).tracker =
    { v.tracker with
      ring := rest ++ [v.tracker.popped]
      stack := v.tracker.stack.tail
      loadPocket := v.tracker.loadPocket.map fun lp : Nat => (((lp : Int) + (-1)) % (v.dial.pockets : Int)).toNat
      nextIdent := if v.tracker.stack.isEmpty then v.tracker.nextIdent + 1 else v.tracker.nextIdent } := by
  have set : (setRing rest (discardBottom r v)).tracker = { v.tracker with ring := rest } := by
    simp only [setRing, discardBottom_tracker]
  have dial : (popToZ (setRing rest (discardBottom r v))).dial = v.dial := by simp [State.dial]
  rw [stepBack, endSlots_tracker, moveLoadPocket_tracker, dial, popToZ_tracker, set]
  rfl

theorem stepBack_outlet (r : PocketRecord) (rest : List PocketRecord) (v : State) (n : Fin 16) :
    (stepBack r rest v).outlets[n] = { v.outlets[n].released r n with slot := .free } := by
  have outlets : (moveLoadPocket (-1) (popToZ (setRing rest (discardBottom r v)))).outlets
      = (releaseIfDecided r v).outlets := by
    rw [moveLoadPocket_outlets, popToZ_outlets, setRing_outlets, discardBottom_eq, (bookIf_frame ..).1]
  rw [stepBack, endSlots_outlet, outlets, releaseIfDecided_outlet]

theorem stepBack_notices (r : PocketRecord) (rest : List PocketRecord) (v : State) :
    (stepBack r rest v).notices = (discardBottom r v).notices := by simp [stepBack]

/-- R100: a step back books the record that leaves the ring at offset 0. -/
theorem books_stepBack (r : PocketRecord) (rest : List PocketRecord) (v : State) :
    Books v (stepBack r rest v) r.standing (v.pocketAt 0) (v.unaccountedReport r (v.pocketAt 0)) := by
  have booked : Books v (discardBottom r v) r.standing (v.pocketAt 0) (v.unaccountedReport r (v.pocketAt 0)) := by
    rw [discardBottom_eq]
    exact (books_bookIf ..).congr_left (by simp) (by simp) (by simp)
  exact ⟨by simpa [stepBack] using booked.sup, by simpa [stepBack] using booked.notice,
    by simpa [stepBack] using booked.quiet, by simpa [stepBack] using booked.report⟩

theorem stepBack_frame (r : PocketRecord) (rest : List PocketRecord) (v : State) :
    (stepBack r rest v).now = v.now ∧ (stepBack r rest v).tables = v.tables ∧ (stepBack r rest v).lrx = v.lrx := by
  simp [stepBack, discardBottom_eq, bookIf_frame]

/-- R9, R180: the gap's notice. -/
theorem raiseGap_notice (i : Fin 11) (underflow : Bool) (s : State) : (raiseGap underflow s).notices[i]
    = if underflow = true ∧ i = 6 then s.notices[i].raised (s.pocketAt s.z) else s.notices[i] := by
  cases underflow with
  | false => simp [raiseGap]
  | true =>
    have index : (Condition.trackGap.index : Nat) = i.val ↔ i = 6 := ⟨fun same => Fin.ext same.symm, fun same => same ▸ rfl⟩
    simp only [raiseGap, if_true, true_and, Fin.getElem_fin, raiseNotice_get, index]

theorem Books.raiseGap {booked : Bool} {pocket : Nat} {report : SortReport} (h : Books s t booked pocket report)
    (underflow : Bool) : Books s (raiseGap underflow t) booked pocket report := by
  have notice : (Machine.raiseGap underflow t).notices[(8 : Fin 11)] = t.notices[(8 : Fin 11)] := by
    rw [raiseGap_notice, if_neg fun ⟨_, same⟩ => absurd same (by decide)]
  exact ⟨by rw [raiseGap_sup, h.sup], notice ▸ h.notice, notice ▸ h.quiet, by rw [raiseGap_ltx, h.report]⟩

end

theorem exec_reverseIndex {s : State} (running : s.held = false) (lot : s.lotOpen = true) (time : Nat) :
    exec (.reverseIndex time) s = .next (finishEvent (countIndex (-1) (reverseParts (advanceTo time s)))) := by
  have lot' : (advanceTo time s).lotOpen = true := lot
  calc exec (.reverseIndex time) s = .next (whenRunning (fun s => inLot onReverseIndex (advanceTo time s)) s) := rfl
    _ = _ := by
      simp only [whenRunning, running, Bool.false_eq_true, if_false, inLot, lot', if_true, onReverseIndex]

/-- Settles O23: the record at offset 0 is discarded, the stack's top joins at Z, and the slots end. -/
theorem reverseIndexMovesRingDown : Obligations.ReverseIndexMovesRingDown := by
  intro time s v p running lot length loadPocket cancelled
  have cancelled : v = cancelCheck (advanceTo time s) := cancelled
  have names : SameNames s v := cancelled ▸ .trans (s := s) (t := advanceTo time s) (.of_tracker rfl) (.cancelCheck _)
  have tables : v.tables = s.tables := by rw [cancelled, cancelCheck_tables, advanceTo_tables]
  have dial : v.dial = s.dial := by simp only [State.dial, tables]
  have pocket : v.tracker.loadPocket = some p := by rw [cancelled, cancelCheck_loadPocket, advanceTo_tracker, loadPocket]
  have gapNotice : v.notices[(6 : Fin 11)] = s.notices[(6 : Fin 11)] := by
    rw [cancelled, cancelCheck_notice (by decide) (by decide)]
    rfl
  obtain ⟨r, rest, ring⟩ : ∃ r rest, v.tracker.ring = r :: rest :=
    List.exists_cons_of_length_pos (by rw [names.length, length]; omega)
  have restLength : rest.length = s.z := by
    have := names.length
    rw [ring, length, List.length_cons] at this
    omega
  have parts : reverseParts (advanceTo time s) = raiseGap v.tracker.stack.isEmpty (stepBack r rest v) := by
    rw [cancelled] at ring ⊢
    exact reverseParts_of_cons ring
  have tracker : (raiseGap v.tracker.stack.isEmpty (stepBack r rest v)).tracker = _ :=
    (raiseGap_tracker ..).trans (stepBack_tracker r rest v)
  have below {k : Nat} (inRing : k < s.z) : (rest ++ [v.tracker.popped])[k]? = v.tracker.ring[k + 1]? := by
    rw [List.getElem?_append_left (by omega), ring, List.getElem?_cons_succ]
  have atZ : (rest ++ [v.tracker.popped])[s.z]? = some v.tracker.popped := by
    rw [← restLength, List.getElem?_concat_length]
  obtain ⟨now, sameTables, lrx⟩ := stepBack_frame r rest v
  refine ⟨_, exec_reverseIndex running lot time, _, congrArg (countIndex (-1)) parts, ?_, fun k inRing => ?_, fun k inRing => ?_,
    fun r' at_0 => ⟨?_, fun n => ?_⟩, fun top stack pushed => ?_, fun empty => ⟨?_, ?_, ?_⟩, ?_, ?_, ?_, fun n => ?_, ?_, ?_, ?_⟩
  · rw [tracker]
    simp [restLength]
  · rw [tracker]
    exact below inRing
  · rw [tracker]
    dsimp only
    rw [below inRing, names.seq]
  · obtain rfl : r = r' := by simpa [ring] using at_0
    rw [← PocketRecord.standing_iff]
    exact (books_stepBack r rest v).raiseGap _
  · obtain rfl : r = r' := by simpa [ring] using at_0
    rw [raiseGap_outlets, stepBack_outlet]
  · rw [← names.stack] at pushed
    rw [tracker]
    dsimp only
    rw [atZ, pushed]
    simp [Tracker.popped, pushed]
  · rw [← names.stack] at empty
    rw [tracker, empty]
    rfl
  · rw [← names.stack] at empty
    rw [tracker]
    dsimp only
    rw [atZ]
    simp [Tracker.popped, empty, PocketRecord.fresh]
  · rw [← names.stack] at empty
    have pocketAtZ : (stepBack r rest v).pocketAt (stepBack r rest v).z
        = (raiseGap v.tracker.stack.isEmpty (stepBack r rest v)).pocketAt s.z := by
      rw [State.z_congr (s := s) (sameTables.trans tables)]
      exact (State.pocketAt_congr (raiseGap_tables ..) (by rw [raiseGap_tracker]) _).symm
    rw [← pocketAtZ, raiseGap_notice, empty, if_pos ⟨rfl, rfl⟩]
    simp only [stepBack_notices, discardBottom_eq, bookIf_notice (i := 6) (by decide), releaseIfDecided_notices, gapNotice]
  · rw [tracker, pocket, dial]
    rfl
  · rw [tracker]
    exact names.nextSeq
  · rw [tracker, cancelled]
    exact cancelCheck_checkTimer _
  · rw [raiseGap_outlets, stepBack_outlet]
  · rw [raiseGap_now, now, cancelled, cancelCheck_now]
    rfl
  · rw [raiseGap_tables, sameTables, tables]
  · rw [raiseGap_lrx, lrx, cancelled, cancelCheck_lrx]
    rfl

end Sys2Proof.Machine

/-! The forward index (R8, R10 to R13, R19): the move, and what the parts after it leave of the ring. -/

namespace Sys2Proof.Machine

section

variable {s t v : State} {r : PocketRecord}

/-! ### The move -/

/-- R11: a RETAINED record that stands for a part is booked as it leaves Z. -/
theorem retire_eq (r : PocketRecord) (s : State) : retire r s =
    push (if r.phase = .retained then r.settle .lost else r)
      (bookIf (decide (r.phase = .retained) && r.counted) (s.pocketAt s.z) (s.unaccountedReport r (s.pocketAt s.z)) s) := by
  by_cases retained : r.phase = .retained
  · simp only [retire, retained, if_true, decide_true, Bool.true_and, bookIf, bookRecord, trackerReport_eq]
  · simp only [retire, retained, if_false, decide_false, Bool.false_and, bookIf, Bool.false_eq_true]

theorem moveUp_of_some (at_z : s.tracker.ring[s.z]? = some r) : moveUp s =
    moveLoadPocket 1 (newRecord (if (retire r (setRing (s.tracker.ring.take s.z) s)).isClearing then .void else .open)
      (retire r (setRing (s.tracker.ring.take s.z) s))) := by
  simp only [moveUp, at_z]

/-- R11, R100: the one booking of a move. -/
theorem books_moveUp (at_z : s.tracker.ring[s.z]? = some r) : Books s (moveUp s) (decide (r.phase = .retained) && r.counted)
    (s.pocketAt s.z) (s.unaccountedReport r (s.pocketAt s.z)) := by
  have booked := books_bookIf (decide (r.phase = .retained) && r.counted) (s.pocketAt s.z)
    (s.unaccountedReport r (s.pocketAt s.z)) (setRing (s.tracker.ring.take s.z) s)
  have same : (retire r (setRing (s.tracker.ring.take s.z) s)) = push (if r.phase = .retained then r.settle .lost else r)
      (bookIf (decide (r.phase = .retained) && r.counted) (s.pocketAt s.z) (s.unaccountedReport r (s.pocketAt s.z))
        (setRing (s.tracker.ring.take s.z) s)) := retire_eq r _
  rw [moveUp_of_some at_z, same]
  exact ⟨by simpa using booked.sup, by simpa using booked.notice, by simpa using booked.quiet, by simpa using booked.report⟩

/-- R12: `load_pocket` steps mod P. -/
theorem stepped_loadPocket (p pockets : Nat) : (((p : Int) + 1) % (pockets : Int)).toNat = (p + 1) % pockets := by
  rw [← Int.natCast_succ, ← Int.natCast_emod, Int.toNat_natCast]

/-! ### The parts after the move -/

theorem compareHome_frame (home : Bool) (s : State) : (compareHome home s).now = s.now
    ∧ (compareHome home s).tables = s.tables ∧ (compareHome home s).lrx = s.lrx := by
  unfold compareHome
  split
  · exact ⟨rfl, rfl, rfl⟩
  · rw [homeMismatch_eq]
    simp

theorem arrivals_frame (s : State) : (arrivals s).now = s.now ∧ (arrivals s).tables = s.tables ∧ (arrivals s).lrx = s.lrx :=
  List.foldlRecOn (motive := fun t => t.now = s.now ∧ t.tables = s.tables ∧ t.lrx = s.lrx) allOutlets
    (fun s n => handOff n s) ⟨rfl, rfl, rfl⟩ fun t kept n _ => by simpa using kept

/-- R13 to R19: what follows the move. -/
def afterMove (home : Bool) (m : State) : State := startCheckTimer (arrivals (passes (deadlines (compareHome home m))))

theorem afterMove_frame (home : Bool) (m : State) : (afterMove home m).now = m.now ∧ (afterMove home m).tables = m.tables
    ∧ (afterMove home m).lrx = m.lrx := by
  have arrived := arrivals_frame (passes (deadlines (compareHome home m)))
  have passed := passes_frame (deadlines (compareHome home m))
  have compared := compareHome_frame home m
  simp [afterMove, arrived, passed, compared]

theorem afterMove_names (home : Bool) (m : State) : SameNames m (afterMove home m) :=
  (SameNames.compareHome home m).trans <| (SameNames.deadlines _).trans <| (SameNames.passes _).trans <|
    (SameNames.arrivals _).trans ⟨rfl, rfl, rfl, rfl⟩

theorem afterMove_checkTimer (home : Bool) (m : State) :
    (afterMove home m).tracker.checkTimer = some (m.now + m.dial.checkDelay) := by
  obtain ⟨now, tables, -⟩ := afterMove_frame home m
  have started : (afterMove home m).tracker.checkTimer = some ((afterMove home m).now + (afterMove home m).dial.checkDelay) := rfl
  rw [started, now, State.dial, tables, State.dial]

/-- R13: only HOME moves `load_pocket` after the move. -/
theorem afterMove_loadPocket {home : Bool} {p : Nat} {m : State} (loadPocket : m.tracker.loadPocket = some p) :
    (afterMove home m).tracker.loadPocket = some (if home = decide (p = 0) then p else 0) := by
  have steady : Steady (compareHome home m) (arrivals (passes (deadlines (compareHome home m)))) :=
    (Steady.deadlines _).trans ((Steady.passes _).trans (Steady.arrivals _))
  have kept : (afterMove home m).tracker.loadPocket = (compareHome home m).tracker.loadPocket := steady.loadPocket
  have atZero : (m.tracker.loadPocket = some 0) ↔ p = 0 := by rw [loadPocket, Option.some.injEq]
  rw [kept, compareHome]
  simp only [atZero]
  split
  · exact loadPocket
  · rw [homeMismatch_eq]

end

theorem exec_forwardIndex {s : State} (running : s.held = false) (lot : s.lotOpen = true) (time : Nat) (home : Bool) :
    exec (.forwardIndex time home) s
      = .next (finishLine (countForward (afterMove home (moveUp (cancelCheck (advanceTo time s)))))) := by
  have lot' : (advanceTo time s).lotOpen = true := lot
  calc exec (.forwardIndex time home) s = .next (whenRunning (fun s => inLot (onForwardIndex home) (advanceTo time s)) s) := rfl
    _ = _ := by
      simp only [whenRunning, running, Bool.false_eq_true, if_false, inLot, lot', if_true, onForwardIndex, forwardParts,
        afterMove]

/-- Settles O18: the parts in their order, the move by its Tracker and its booking, and the names after it. -/
theorem forwardIndexMovesRingUp : Obligations.ForwardIndexMovesRingUp := by
  intro time home s v m u running lot cancelled moved followed
  have cancelled : v = cancelCheck (advanceTo time s) := cancelled
  have followed : u = afterMove home m := followed
  have names : SameNames s v := cancelled ▸ .trans (s := s) (t := advanceTo time s) (.of_tracker rfl) (.cancelCheck _)
  have tables : v.tables = s.tables := by rw [cancelled, cancelCheck_tables, advanceTo_tables]
  have dial : v.dial = s.dial := by simp only [State.dial, tables]
  have sameZ : v.z = s.z := State.z_congr tables
  have now : v.now = max s.now time := by
    rw [cancelled, cancelCheck_now]
    rfl
  have lrx : v.lrx = s.lrx := by
    rw [cancelled, cancelCheck_lrx]
    rfl
  refine ⟨by rw [exec_forwardIndex running lot, followed, moved, cancelled], fun r at_z => ?_, fun p length loadPocket => ?_⟩
  · have tracker := moveUp_tracker at_z
    subst moved
    refine ⟨⟨_, by rw [tracker]⟩, ?_, ?_, books_moveUp at_z, ?_⟩
    · rw [tracker]
      rfl
    · rw [tracker, ← dial]
      simp only [stepped_loadPocket]
    · simp
  · obtain ⟨r, at_z⟩ : ∃ r, v.tracker.ring[v.z]? = some r :=
      ⟨_, List.getElem?_eq_getElem (by rw [names.length, length, sameZ]; omega)⟩
    have tracker := moveUp_tracker at_z
    have follows := afterMove_names home m
    obtain ⟨sameNow, sameTables, sameLrx⟩ := afterMove_frame home m
    have pocket : m.tracker.loadPocket = some ((p + 1) % s.dial.pockets) := by
      rw [moved, tracker, cancelled, cancelCheck_loadPocket, advanceTo_tracker, loadPocket, ← cancelled, dial, Option.map_some,
        stepped_loadPocket]
    subst followed
    refine ⟨?_, fun k inRing => ?_, ?_, ?_, ?_, ?_, ?_, ?_, ?_, ?_, ?_⟩
    · rw [follows.length, moved, tracker]
      simp [names.length, length, sameZ]
    · rw [follows.seq, moved, tracker, ← names.seq]
      dsimp only
      rw [List.getElem?_cons_succ, List.getElem?_take_of_lt (by omega)]
    · rw [follows.seq, moved, tracker]
      simp [PocketRecord.fresh, Tracker.issue, names.nextSeq]
    · rw [follows.stack, moved, tracker, ← names.seq, ← sameZ, at_z]
      exact congrArg some (apply_ite PocketRecord.seq (r.phase = .retained) (r.settle .lost) r |>.trans (ite_self r.seq))
    · rw [follows.stack, moved, tracker, names.stack]
      rfl
    · rw [follows.nextSeq, moved, tracker, names.nextSeq]
      rfl
    · exact afterMove_loadPocket pocket
    · rw [afterMove_checkTimer, moved, moveUp_now, now, State.dial, moveUp_tables, tables, State.dial]
    · rw [sameNow, moved, moveUp_now, now]
    · rw [sameTables, moved, moveUp_tables, tables]
    · rw [sameLrx, moved, moveUp_lrx, lrx]

end Sys2Proof.Machine

/-! The record law does not bound next seq (R4, R5): a state that keeps the laws and whose forward index breaks one. -/

namespace Sys2Proof.Machine

/-! ### The state -/

/-- P 5, Z 4: contact at offset 1, value at 2, and one outlet, the sweep outlet, at 3. -/
def smallTables : TableSet :=
  { dial := some { pockets := 5, checkOffset := 4, checkDelay := 1000 }
    stations := #v[some { enabled := true, offset := 1, allowance := 0 }, some { enabled := true, offset := 2, allowance := 0 },
      none]
    outlets := (Vector.replicate 16 none).set 0 (some
      { enabled := true, offset := 3, mode := .pulse, fireDelay := 500, pulseWidth := 1000, ackLimit := 1000, flightMin := 100,
        flightMax := 20000, capacity := 1000, overflow := none, missLimit := 0, sweep := true })
    classes := Vector.replicate 32 none
    lot := some { nominalMantissa := 10000, nominalExponent := 0, driftLimit := 250, contactReject := 0, outOfTolerance := 0,
                  driftReject := 0, retest := 0, abandon := false }
    link := some .default }

/-- A VOID record whose seq is 5 above the largest that four bytes hold. -/
def beyondRecord : PocketRecord := .fresh (some 4294967300) 0 .void

/-- A lot in SORTING with a fresh ring of VOID records, `beyondRecord` on the stack, and a next seq above it; a forward
index waits. -/
def beyondState : State :=
  { State.reset with
    tracker :=
      { ring := (List.range 5).map fun ident => .fresh none ident .void
        stack := [beyondRecord], loadPocket := some 0, nextSeq := some 4294967301, checkTimer := none, nextIdent := 5 }
    tables := { active := some smallTables, staged := smallTables, check := Config.crcStart }
    sup := .afterReset .sorting .powerOn
    pending := [.forwardIndex 0 false] }

/-! ### The laws hold in it -/

theorem beyondState_geometry : GeometryLaw beyondState where
  active := by decide +kernel
  valid t active := by
    obtain rfl : smallTables = t := Option.some.inj active
    decide +kernel
  ring _ := rfl
  loadPocket _ := ⟨0, rfl, by decide +kernel⟩
  noLot noLot := nomatch noLot

theorem beyondState_supervisor : SupervisorLaw beyondState := by
  constructor <;> decide

theorem beyondState_outlet (n : Fin 16) : beyondState.outlets[n] = .afterReset := by
  simp [beyondState, State.reset]

theorem beyondState_account : AccountLaw beyondState where
  reserved := by decide +kernel
  capacity n _ _ _ := .inl (by rw [beyondState_outlet]; rfl)
  balance _ := by decide +kernel

theorem beyondState_entries : beyondState.entries = [] := by decide +kernel

theorem beyondState_records {r : PocketRecord} (member : r ∈ beyondState.tracker.records) :
    r = beyondRecord ∨ ∃ ident < 5, r = .fresh none ident .void := by
  obtain inRing | onStack := List.mem_append.mp member
  · obtain ⟨ident, below, rfl⟩ := List.mem_map.mp inRing
    exact .inr ⟨ident, List.mem_range.mp below, rfl⟩
  · exact .inl (List.mem_singleton.mp onStack)

theorem beyondState_record : RecordLaw beyondState where
  records := by decide +kernel
  entries := by decide +kernel
  issued r member := by
    obtain rfl | ⟨ident, below, rfl⟩ := beyondState_records member
    · exact ⟨_, rfl, by decide⟩
    · exact below
  entryIssued := by simp [beyondState_entries]
  entryRecord := by simp [beyondState_entries]
  firingEntry r member firing := by
    obtain rfl | ⟨ident, below, rfl⟩ := beyondState_records member <;> nomatch firing
  uncounted r member _ := by
    obtain rfl | ⟨ident, below, rfl⟩ := beyondState_records member <;> rfl
  counted r member phase := by
    obtain rfl | ⟨ident, below, rfl⟩ := beyondState_records (List.mem_append_left _ member) <;>
      exact phase.elim nofun nofun
  slot n name slot := by
    rw [beyondState_outlet] at slot
    nomatch slot
  claim n name claim := by
    rw [beyondState_outlet] at claim
    nomatch claim
  apart n name slot := by
    rw [beyondState_outlet] at slot
    nomatch slot
  atCheck _ r at_z := by
    obtain rfl | ⟨ident, below, rfl⟩ := beyondState_records (List.mem_append_left _ (List.mem_of_getElem? at_z)) <;>
      exact ⟨nofun, nofun, nofun, nofun⟩
  retired r member := by
    obtain rfl | ⟨ident, below, rfl⟩ := beyondState_records (List.mem_append_right _ member) <;>
      exact ⟨rfl, nofun⟩
  noLot noLot := nomatch noLot
  summary summary := nomatch summary

/-! ### The step -/

theorem beyondState_step : ∃ t, step beyondState = .next t ∧ beyondRecord ∈ t.tracker.stack
    ∧ t.tracker.nextSeq = some 4294967296 := ⟨_, rfl, by decide +kernel, by decide +kernel⟩

/-- Refutes O8: no law bounds next seq, and an index sets it to at most 4,294,967,296 (R5). From a state in which it is
4,294,967,301 and a record has the seq 4,294,967,300, a forward index leaves next seq below that record's seq, which then
counts as not issued. -/
theorem not_recordLawIsKept : ¬ Obligations.RecordLawIsKept := by
  intro keeps
  obtain ⟨t, stepped, onStack, nextSeq⟩ := beyondState_step
  have law := keeps beyondState t beyondState_geometry beyondState_supervisor beyondState_account beyondState_record stepped
  obtain ⟨next, isNext, below⟩ : t.tracker.hasIssued (.numbered 4294967300) :=
    law.issued beyondRecord (List.mem_append_right _ onStack)
  obtain rfl : 4294967296 = next := Option.some.inj (nextSeq.symm.trans isNext)
  omega

end Sys2Proof.Machine
